-- ==== Sys2Proof/Word.lean ====
section
/-! DEFINITION. The block's data types: an 8-bit byte and a 16-bit word (R18), the 8-bit word address of the host bus
(R46) and the 25-bit host bus transaction (R71). Everything is unsigned (R19). -/

namespace Sys2Proof

/-- A frame byte, a channel byte or an observer handle: 8 bits (R17, R18). -/
abbrev Byte := BitVec 8

/-- The width of one host bus access and of a measurement word: 16 bits (R18, R62). -/
abbrev Word := BitVec 16

/-- A word address of the host register space, 0x00 to 0xFF (R46). -/
abbrev BusAddr := BitVec 8

/-- One host bus transaction, format HBT: WE [24], ADDR [23:16], DATA [15:0] (R71). -/
abbrev Hbt := BitVec 25

end Sys2Proof
end

