-- ==== Sys2Proof/Syntax.lean ====
section
/-! DEFINITION. The instructions: one constructor of `Instr` per row of spec/opcode_table.json, with the register names
of the host register space (R47) and the six commands (R75). -/

namespace Sys2Proof

/-- The six commands a CMD write can start (R75). -/
inductive Command
  | poll
  | acquire
  | resync
  | decode
  | register
  | notify
deriving DecidableEq, Repr

/-- The registers of the host register space (R47). `meas k` is MEAS[k+1], since the spec numbers MEAS from 1. -/
inductive Reg
  | cmd
  | status
  | config
  | note
  | ack
  | obs (j : Fin 10)
  | fbuf (i : Fin 32)
  | meas (k : Fin 12)
deriving DecidableEq, Repr

/-- One host step (R71, R81). The first six are the CMD writes of R75, the next two the ACK writes of R73, and the last
two the plain bus accesses of R82 and R84. The engine's micro-steps have no encoding (R80) and are not here. -/
inductive Instr
  /-- CMD = 0x0001 (R91). -/
  | poll
  /-- CMD = 0x0002 (R100). -/
  | acquire
  /-- CMD = 0x0003 (R109). -/
  | resync
  /-- CMD = 0x0004 (R119). -/
  | decode
  /-- CMD = 0x0005 with the handle in CMD[15:8]; handle 0 is the null callback (R133, R74). -/
  | register (h : Byte)
  /-- CMD = 0x0006 (R137). -/
  | notify
  /-- ACK = 0x0001, the callback returned (R73, R139). -/
  | ackDone
  /-- ACK = 0x0002, the callback raised (R73, R139). -/
  | ackError
  /-- BusRead of a word address (R82). -/
  | rd (a : BusAddr)
  /-- BusWrite of a word to a word address (R84). -/
  | wr (a : BusAddr) (d : Word)
deriving DecidableEq, Repr

end Sys2Proof
end

