-- ==== Sys2Proof/Machine/RegMap.lean ====
section
/-! DEFINITION. The host register space map (R47): which register stands at a word address, and where a register
stands. Every address not listed is unmapped. -/

namespace Sys2Proof.Machine

/-- The register at a word address, none where the address is unmapped (R47). -/
def regAt (a : BusAddr) : Option Reg :=
  if a = 0x00 then some .cmd
  else if a = 0x01 then some .status
  else if a = 0x02 then some .config
  else if a = 0x03 then some .note
  else if a = 0x04 then some .ack
  else if h : 0x10 ≤ a.toNat ∧ a.toNat < 0x1A then some (.obs ⟨a.toNat - 0x10, by omega⟩)
  else if h : 0x20 ≤ a.toNat ∧ a.toNat < 0x40 then some (.fbuf ⟨a.toNat - 0x20, by omega⟩)
  else if h : 0x40 ≤ a.toNat ∧ a.toNat < 0x4C then some (.meas ⟨a.toNat - 0x40, by omega⟩)
  else none

/-- The word address of a register (R47). -/
def regAddr : Reg → BusAddr
  | .cmd => 0x00
  | .status => 0x01
  | .config => 0x02
  | .note => 0x03
  | .ack => 0x04
  | .obs j => BitVec.ofNat 8 (0x10 + j.val)
  | .fbuf i => BitVec.ofNat 8 (0x20 + i.val)
  | .meas k => BitVec.ofNat 8 (0x40 + k.val)

end Sys2Proof.Machine
end

