-- ==== Sys2Proof/WellFormed.lean ====
section
/-! DEFINITION. Which instructions are well formed: those that are the reading of exactly one host bus transaction
(R76). A read or a plain write names a mapped address; a write to CMD or to ACK is one of the named rows, or it is
refused (R77), so it is never the plain `wr`. -/

namespace Sys2Proof

/-- The check of an RD operand: ADDR is mapped (R82, R47). -/
def Instr.wfRead (a : BusAddr) : Bool := (Machine.regAt a).isSome

/-- The check of a WR operand pair: ADDR is mapped, and it is neither CMD nor ACK, whose writes have rows of their own
(R76 points 4 to 6). -/
def Instr.wfWrite (a : BusAddr) : Bool :=
  match Machine.regAt a with
  | none => false
  | some .cmd => false
  | some .ack => false
  | some _ => true

/-- Well formed: the reading of one host bus transaction (R76). -/
def Instr.wf : Instr → Bool
  | .poll => true
  | .acquire => true
  | .resync => true
  | .decode => true
  | .register _ => true
  | .notify => true
  | .ackDone => true
  | .ackError => true
  | .rd a => Instr.wfRead a
  | .wr a _ => Instr.wfWrite a

end Sys2Proof
end

