-- ==== Sys2Proof/Decode.lean ====
section
/-! DEFINITION. The decoder of one host bus transaction (R76), total on every 25-bit word and refusing by name (R77),
and the encoder, written from the same tables (R71 to R75, R81). -/

namespace Sys2Proof

/-- Why a transaction spells no operation (R77). -/
inductive DecodeError
  /-- A read with DATA ≠ 0. -/
  | malformedTransaction
  /-- An access to an address outside the map of R47. -/
  | unmappedAddress
  /-- A CMD write with OP outside 0x1 to 0x6. -/
  | reservedOpcode
  /-- A CMD write with RSV ≠ 0, or with ARG ≠ 0 and OP ≠ REGISTER. -/
  | reservedField
  /-- An ACK write of anything but 0x0001 and 0x0002. -/
  | reservedAckCode
deriving DecidableEq, Repr

/-- What the decoder answers. -/
inductive Decoded
  | ok (i : Instr)
  | reject (e : DecodeError)
deriving DecidableEq, Repr

/-! ### Fields of the three formats -/

/-- HBT.WE, bit 24: 1 is BusWrite (R71). -/
def hbtWe (w : Hbt) : Bool := w.getLsbD 24

/-- HBT.ADDR, bits [23:16] (R71). -/
def hbtAddr (w : Hbt) : BusAddr := w.extractLsb' 16 8

/-- HBT.DATA, bits [15:0] (R71). -/
def hbtData (w : Hbt) : Word := w.extractLsb' 0 16

/-- WE || ADDR || DATA (R71, R81). -/
def mkHbt (we : Bool) (a : BusAddr) (d : Word) : Hbt := BitVec.ofBool we ++ a ++ d

/-- CMD.OP, bits [3:0] (R72). -/
def cmdOp (d : Word) : BitVec 4 := d.extractLsb' 0 4

/-- CMD.RSV, bits [7:4], which must be 0 (R72). -/
def cmdRsv (d : Word) : BitVec 4 := d.extractLsb' 4 4

/-- CMD.ARG, bits [15:8]: the handle of REGISTER, 0 for every other command (R72, R74). -/
def cmdArg (d : Word) : Byte := d.extractLsb' 8 8

/-- ARG || RSV || OP with RSV = 0 (R72). -/
def mkCmd (arg : Byte) (op : BitVec 4) : Word := arg ++ 0#4 ++ op

/-! ### The opcode map -/

/-- The command a CMD.OP value names; 0x0 and 0x7 to 0xF are reserved (R75). -/
def commandOf (op : BitVec 4) : Option Command :=
  if op = 0x1 then some .poll
  else if op = 0x2 then some .acquire
  else if op = 0x3 then some .resync
  else if op = 0x4 then some .decode
  else if op = 0x5 then some .register
  else if op = 0x6 then some .notify
  else none

/-- The CMD.OP value of a command (R75). -/
def commandOp : Command → BitVec 4
  | .poll => 0x1
  | .acquire => 0x2
  | .resync => 0x3
  | .decode => 0x4
  | .register => 0x5
  | .notify => 0x6

/-- Reads a CMD word: its command, or why the word is reserved, in the order Issue tests it (R77, R88). -/
def checkCmd (d : Word) : Except DecodeError Command :=
  match commandOf (cmdOp d) with
  | none => .error .reservedOpcode
  | some c =>
    if cmdRsv d ≠ 0 then .error .reservedField
    else if c ≠ .register ∧ cmdArg d ≠ 0 then .error .reservedField
    else .ok c

/-- The instruction of a command and its ARG field (R75). -/
def commandInstr (c : Command) (arg : Byte) : Instr :=
  match c with
  | .poll => .poll
  | .acquire => .acquire
  | .resync => .resync
  | .decode => .decode
  | .register => .register arg
  | .notify => .notify

/-- Decodes the DATA of a write to CMD (R76 point 4). -/
def decodeCmd (d : Word) : Decoded :=
  match checkCmd d with
  | .error e => .reject e
  | .ok c => .ok (commandInstr c (cmdArg d))

/-- Decodes the DATA of a write to ACK (R73, R76 point 5). -/
def decodeAck (d : Word) : Decoded :=
  if d = 0x0001 then .ok .ackDone
  else if d = 0x0002 then .ok .ackError
  else .reject .reservedAckCode

/-- Decodes one host bus transaction in the order of R76. -/
def decodeHbt (w : Hbt) : Decoded :=
  if hbtWe w = false ∧ hbtData w ≠ 0 then .reject .malformedTransaction
  else
    match Machine.regAt (hbtAddr w) with
    | none => .reject .unmappedAddress
    | some r =>
      if hbtWe w = false then .ok (.rd (hbtAddr w))
      else
        match r with
        | .cmd => decodeCmd (hbtData w)
        | .ack => decodeAck (hbtData w)
        | _ => .ok (.wr (hbtAddr w) (hbtData w))

/-- The transaction of an instruction (R81). -/
def encode : Instr → Hbt
  | .poll => mkHbt true 0x00 (mkCmd 0 0x1)
  | .acquire => mkHbt true 0x00 (mkCmd 0 0x2)
  | .resync => mkHbt true 0x00 (mkCmd 0 0x3)
  | .decode => mkHbt true 0x00 (mkCmd 0 0x4)
  | .register h => mkHbt true 0x00 (mkCmd h 0x5)
  | .notify => mkHbt true 0x00 (mkCmd 0 0x6)
  | .ackDone => mkHbt true 0x04 0x0001
  | .ackError => mkHbt true 0x04 0x0002
  | .rd a => mkHbt false a 0x0000
  | .wr a d => mkHbt true a d

/-! ### Words numbered as spec/opcode_table.json numbers them -/

/-- The transaction that carries a table word. A row of 16 bits is the DATA of a write to CMD; a wider row is a whole HBT.
The two ACK rows are 16 bits wide too, and position alone, not content, tells ACK words from CMD words (R79): a bare
16-bit word is read as a CMD word here (DESIGN CHOICE, notes/assumptions/6.md). -/
def tableHbt (nbits w : Nat) : Option Hbt :=
  if nbits ≤ 16 then
    if w < 2 ^ 16 then some (mkHbt true 0x00 (BitVec.ofNat 16 w)) else none
  else if w < 2 ^ 25 then some (BitVec.ofNat 25 w)
  else none

/-- The instruction the decoder reads from a table word, none where it refuses. -/
def decodeTableWord (nbits w : Nat) : Option Instr :=
  match tableHbt nbits w with
  | none => none
  | some x =>
    match decodeHbt x with
    | .ok i => some i
    | .reject _ => none

end Sys2Proof
end

