-- ==== Sys2Proof/Machine/Agents.lean ====
section
/-! DEFINITION. The agents' turns (R22, R65): whose atomic step comes next. Turns are inputs of the machine, not state of
the block. -/

namespace Sys2Proof.Machine

/-- What takes the next step (R22): any agent may. -/
inductive Turn
  /-- The engine takes its step, if it has one. -/
  | engine
  /-- The host performs one bus transaction (R71). -/
  | host (w : Hbt)
  /-- The producer appends one byte to the channel, if there is room (R54). -/
  | producer (b : Byte)
  /-- The reset signal is asserted, with the REQ_MAX input at that moment (R159). -/
  | reset (reqMax : Nat)
deriving DecidableEq, Repr, Inhabited

/-- The turns that come once no turn is listed any more, without end: so a producer may go on appending for ever (R115,
R168), and any schedule of the agents may follow (R22). -/
inductive Later
  /-- The engine alone goes on. -/
  | engine
  /-- These turns, again and again. -/
  | again (ts : List Turn)
  /-- A schedule nothing is known about, the k-th, from its turn n on (`Config.freeTurn`). -/
  | free (k n : Nat)
deriving DecidableEq, Repr

end Sys2Proof.Machine
end

