-- ==== Sys2Proof/Config.lean ====
section
/-! DEFINITION. The constants of 00_scope.md section 3 (R8 to R17), the values `State.reset` gives the two open
parameters, and the free values: the deadline draw, an open schedule of the agents, and the byte a fault names. -/

namespace Sys2Proof.Config

/-- FRAME_LEN, bytes in a frame (R8). -/
@[simp] def frameLen : Nat := 32

/-- MARK0, the first marker byte on the wire (R9). -/
@[simp] def mark0 : Byte := 0x42

/-- MARK1, the second marker byte on the wire (R9). -/
@[simp] def mark1 : Byte := 0x4D

/-- LEN_DECL, the only declared length a frame may carry (R10). -/
@[simp] def lenDecl : Word := 28

/-- NWORDS, measurement words in a frame (R11). -/
@[simp] def nWords : Nat := 12

/-- HARD_CAP, the physical cap on observers (R12). -/
@[simp] def hardCap : Nat := 10

/-- RETRY_INIT, the retry counter at the start of a poll (R13). -/
@[simp] def retryInit : BitVec 2 := 3

/-- DEADLINE_MS (R14). The model keeps no time, so no transition reads it: the deadline enters as a draw (R153). -/
@[simp] def deadlineMs : Nat := 1000

/-- The registry capacity that reset latches: CAP = min(REQ_MAX, HARD_CAP) (R15, R33). -/
@[simp] def capOf (reqMax : Nat) : BitVec 4 := BitVec.ofNat 4 (min reqMax hardCap)

/-- The REQ_MAX of the one state `State.reset` (open parameter D28).
DESIGN CHOICE 10, the value 95_test_vectors.md starts from; notes/assumptions/2.md, unsafe. -/
def resetReqMax : Nat := 10

/-- The CHAN_CAP of the one state `State.reset` (open parameter D15).
DESIGN CHOICE 64, the most bytes any vector of 95_test_vectors.md places; notes/assumptions/3.md, unsafe. -/
def resetChanCap : Nat := 64

/-- The FREE VALUE of `draw_expired()` (R153, I8), used for a draw that the state's list of draws does not give.
It has no body, so nothing can be proved about any of its values; notes/assumptions/4.md, safe. -/
opaque freeDraw : Nat → Bool

/-- The FREE VALUE that gives the turn number n of the schedule number k (R22: any agent may take the next step; R54: the
producer's bytes and their timing are open, I11). It has no body; notes/assumptions/18.md, safe. -/
opaque freeTurn : Nat → Nat → Machine.Turn

/-- The FREE VALUE that says which byte a D_EXEC fault names when several bytes of FBUF are unwritten (R120 says only
that one is). It has no body; notes/assumptions/8.md, safe. -/
opaque freeUnwritten : List (Fin 32) → Nat

end Sys2Proof.Config
end

