-- ==== Sys2Proof/Machine/State.lean ====
section
/-! DEFINITION. The state of the machine as plain data (10_state.md, R45, R22), the reasons a step can stop (R145, R146),
and the state after reset (R159). -/

namespace Sys2Proof.Machine

/-- STATUS.RESULT, the outcome of the last command (R29, R143). Codes 0x9 to 0xF are never written, so they are no values
of this type. -/
inductive ResultCode
  | none
  | ok
  | insufficientData
  | desynchronized
  | headerMismatch
  | lengthMismatch
  | checksumMismatch
  | timeout
  | callbackError
deriving DecidableEq, Repr

/-- STATUS.POLLST, the state of the poll state machine (R31). -/
inductive PollState
  | idle
  | attempting
  | succeeded
  | exhausted
deriving DecidableEq, Repr

/-- SEQ, the engine's next atomic step (R25). -/
inductive Seq
  | idle
  | gExec
  | pHead
  | aSample
  | aRead32
  | rRead
  | rPeek
  | rTake2
  | rFlush
  | aMark
  | aRead30
  | dExec
  | nNext
  | nWait
deriving DecidableEq, Repr

/-- The deadline timer (R43, R153). The model keeps no time: what the timer shows is the draw. -/
inductive Timer
  | stopped
  | running
deriving DecidableEq, Repr

/-- The reasons of Fault(reason) (R146). Safe: the machine stops where the hardware would give some byte (D27). -/
inductive Fault
  /-- Raised by RD of FBUF[i], and by D_EXEC, while FBUF[i] holds no value (R38, R82, R120). Safe. -/
  | unwrittenFrameByte (i : Fin 32)
deriving DecidableEq, Repr

/-- The reasons of Refuse(reason) (R145). Safe: the model makes no claim about a run that takes such a step (D10). -/
inductive Refusal
  /-- An instruction without a meaning yet, by its mnemonic. No arm raises it: every instruction has its meaning. Safe. -/
  | notModelled (mnemonic : String)
  /-- A bus access to an address outside the register map (R47). Raised by the decoder, RD and WR. Safe. -/
  | unmappedAddress
  /-- A bus read with DATA ≠ 0 (R77). Raised by the decoder. Safe. -/
  | malformedTransaction
  /-- A CMD write with a reserved OP (R77, R88). Raised by the decoder and by WR. Safe. -/
  | reservedOpcode
  /-- A CMD write with RSV ≠ 0, or ARG ≠ 0 and OP ≠ REGISTER (R77, R88). Raised by the decoder and by WR. Safe. -/
  | reservedField
  /-- An ACK write of a code other than DONE and ERROR (R139). Raised by the decoder and by WR. Safe. -/
  | reservedAckCode
  /-- A write to CMD or to FBUF while BUSY = 1 (R86). Raised by the six commands and by WR. Safe. -/
  | busyWrite
  /-- An ACK write while NOTE.PEND = 0 (R139). Raised by the two ACK rows and by WR. Safe. -/
  | noPendingNotification
  /-- A state with REFUSED = true has no further steps (R145). Raised by `step`. Safe. -/
  | runRefused
deriving DecidableEq, Repr

/-- All of it: what the spec gives the block, the external channel, the model's two marks, and the inputs that have not
been taken yet. -/
structure State where
  /-- CMD, the last accepted command word (R27). -/
  cmd : Word
  /-- STATUS.RESULT (R29). -/
  result : ResultCode
  /-- STATUS.BUSY (R30). -/
  busy : Bool
  /-- STATUS.POLLST (R31). -/
  pollst : PollState
  /-- STATUS.RETRY (R32). -/
  retry : BitVec 2
  /-- CONFIG.CAP (R33). -/
  cap : BitVec 4
  /-- CONFIG.COUNT (R33). -/
  count : BitVec 4
  /-- NOTE, all 16 bits (R34). -/
  note : Word
  /-- OBS[0] to OBS[9], bits [7:0]; the upper bits are reserved and read 0 (R36). -/
  obs : Vector Byte 10
  /-- FBUF[0] to FBUF[31], bits [7:0]; the upper bits read 0 (R37). -/
  fbuf : Vector Byte 32
  /-- WRITTEN[i]: FBUF[i] holds a value (R38). -/
  written : Vector Bool 32
  /-- MEAS[1] to MEAS[12]; entry k is MEAS[k+1] (R39). -/
  meas : Vector Word 12
  /-- SEQ, hidden (R25). -/
  seq : Seq
  /-- NIDX, hidden (R41). -/
  nidx : BitVec 4
  /-- PFIRST, hidden (R42). -/
  pfirst : Bool
  /-- The deadline timer, hidden (R43). -/
  timer : Timer
  /-- FAULTED, a set of reasons that only grows, held as a list with no repeats (R44, R146). -/
  faulted : List Fault
  /-- REFUSED, never cleared (R44, R145). -/
  refused : Bool
  /-- The host has faulted and takes no further step (R146). -/
  hostHalted : Bool
  /-- The engine has faulted and takes no further step (R146). -/
  engineHalted : Bool
  /-- Q, the channel's content, the oldest byte first (R45). -/
  queue : List Byte
  /-- CHAN_CAP, the most bytes the channel holds: a parameter of the external channel that no step writes (R16). -/
  chanCap : Nat
  /-- The model's: the turns to come, the next one first (R22). -/
  turns : List Turn
  /-- The model's: what comes when `turns` is empty (R22, R168). -/
  later : Later
  /-- The model's: the answers of `draw_expired()` to come, the next one first (R153). -/
  draws : List Bool
  /-- The model's: how many draws were asked; the free value is applied to it when `draws` is empty. -/
  drawCount : Nat
  /-- The model's: the word the latest BusRead returned to the host, none while no BusRead has been made (R71, R82). -/
  busReply : Option Word
deriving DecidableEq, Repr

/-- The machine at the start of a run, right after a reset with this REQ_MAX, beside an empty channel of this CHAN_CAP
(R159; the table of 10_state.md section 7; DESIGN CHOICE for the channel, notes/assumptions/17.md). -/
def State.powerOn (reqMax chanCap : Nat) : State where
  cmd := 0x0000
  result := .none
  busy := false
  pollst := .idle
  retry := 0
  cap := Config.capOf reqMax
  count := 0
  note := 0x0000
  obs := Vector.replicate 10 0
  fbuf := Vector.replicate 32 0
  written := Vector.replicate 32 false
  meas := Vector.replicate 12 0
  seq := .idle
  nidx := 0
  pfirst := false
  timer := .stopped
  faulted := []
  refused := false
  hostHalted := false
  engineHalted := false
  queue := []
  chanCap := chanCap
  turns := []
  later := .engine
  draws := []
  drawCount := 0
  busReply := none

/-- The machine right after reset (R159), the two open parameters at the values of `Config` (DESIGN CHOICE,
notes/assumptions/2.md and 3.md). No turn is placed and the engine alone goes on (notes/assumptions/11.md):
the block is IDLE and waits for a command. -/
def State.reset : State := State.powerOn Config.resetReqMax Config.resetChanCap

end Sys2Proof.Machine
end

