-- ==== Sys2Proof/Machine/Operands.lean ====
section
/-! DEFINITION. Operand assembly (R74), big-endian assembly (R20), and the fields the engine reads back from CMD. -/

namespace Sys2Proof.Machine

/-- BE16(hi, lo) = (zext_16(hi) << 8) | zext_16(lo) (R20). -/
def be16 (hi lo : Byte) : Word := (hi.setWidth 16 <<< 8) ||| lo.setWidth 16

/-- FBUF[o] for an offset; a frame has none beyond 31, and every use of it names an offset below 32. -/
def frameByteAt (F : Vector Byte 32) (o : Nat) : Byte := if h : o < 32 then F[o] else 0

/-- BE16at(F, o) = BE16(F[o], F[o+1]) (R20). -/
def be16At (F : Vector Byte 32) (o : Nat) : Word := be16 (frameByteAt F o) (frameByteAt F (o + 1))

/-- zext_16 of a byte: how an 8-bit register file reads on the bus (R36, R37, R51). -/
def zextByte (b : Byte) : Word := b.setWidth 16

/-- DATA[7:0], the part of a write to FBUF that is stored (R37, R74). -/
def lowByte (d : Word) : Byte := d.extractLsb' 0 8

/-- The command that runs: CMD.OP (R26). -/
def State.command (s : State) : Option Command := commandOf (cmdOp s.cmd)

/-- The handle of REGISTER: CMD.ARG, unsigned (R74). -/
def State.handle (s : State) : Byte := cmdArg s.cmd

/-- OBS[j][7:0] (R36). Slots of the file are 0 to 9; an index above them is never used in a state that meets the
invariant, and reads 0 here. -/
def State.obsAt (s : State) (j : Nat) : Byte := if h : j < 10 then s.obs[j] else 0

end Sys2Proof.Machine
end

