-- ==== Sys2Proof/Machine/Flags.lean ====
section
/-! DEFINITION. The words STATUS, CONFIG and NOTE, assembled from their fields, reserved fields reading 0 (R28, R33, R34),
and the numbers of the result codes and poll states (R143, R31). -/

namespace Sys2Proof.Machine

/-- The number of a result code (R143). -/
def resultBits : ResultCode → BitVec 4
  | .none => 0x0
  | .ok => 0x1
  | .insufficientData => 0x2
  | .desynchronized => 0x3
  | .headerMismatch => 0x4
  | .lengthMismatch => 0x5
  | .checksumMismatch => 0x6
  | .timeout => 0x7
  | .callbackError => 0x8

/-- The number of a poll state (R28, R31). -/
def pollBits : PollState → BitVec 2
  | .idle => 0
  | .attempting => 1
  | .succeeded => 2
  | .exhausted => 3

/-- STATUS: reserved [15:10], RETRY [9:8], reserved [7], POLLST [6:5], BUSY [4], RESULT [3:0] (R28). -/
def statusWord (s : State) : Word :=
  0#6 ++ s.retry ++ 0#1 ++ pollBits s.pollst ++ BitVec.ofBool s.busy ++ resultBits s.result

/-- CONFIG: reserved [15:8], COUNT [7:4], CAP [3:0] (R33). -/
def configWord (s : State) : Word := 0#8 ++ s.count ++ s.cap

/-- The word a pending notification puts in NOTE: PEND [15], reserved [14:12], SLOT [11:8], HANDLE [7:0] (R34, R138). -/
def noteWord (slot : BitVec 4) (h : Byte) : Word := 1#1 ++ 0#3 ++ slot ++ h

/-- NOTE.PEND, bit 15 (R34). -/
def notePend (s : State) : Bool := s.note.getLsbD 15

end Sys2Proof.Machine
end

