-- ==== Sys2Proof/Machine/Ops.lean ====
section
/-! DEFINITION. The operations every meaning and every engine step is built from: the channel primitives (R54 to R59), the
frame buffer (R37, R38), command acceptance and completion (R88, R89), the acquirer's failure routing (R101), the deadline
draw (R153), the reset signal (R159, R160), and the model's two marks (R145, R146).

The block has no traps (R149, R150): a failure ends its command through `finish`, or under POLL goes back to the loop
head, so `finish` and `acqFail` are this hardware's taking of an exception and nothing returns from one. -/

namespace Sys2Proof.Machine

/-- The outcome of a step of this machine. -/
abbrev Answer := Host.Outcome State Fault Refusal

/-! ### The byte channel -/

/-- ch_available(): |Q| (R55). -/
def chAvailable (s : State) : Nat := s.queue.length

/-- ch_peek(): the oldest byte, not removed (R56). -/
def chPeek (s : State) : Option Byte := s.queue.head?

/-- ch_read(): the oldest byte, none when Q is empty (R57). -/
def chRead (s : State) : Option Byte := s.queue.head?

/-- The channel after ch_read(): its oldest byte is gone (R57). -/
def chReadRest (s : State) : State := { s with queue := s.queue.tail }

/-- ch_readBytes(n): the min(n, |Q|) oldest bytes, in order (R58). -/
def chReadBytes (n : Nat) (s : State) : List Byte := s.queue.take n

/-- The channel after ch_readBytes(n) (R58). -/
def chReadBytesRest (n : Nat) (s : State) : State := { s with queue := s.queue.drop n }

/-- ch_flush(): Q is emptied (R59). -/
def chFlush (s : State) : State := { s with queue := [] }

/-- The producer appends one byte at the tail, and only when |Q| < CHAN_CAP (R54). -/
def chAppend (b : Byte) (s : State) : State :=
  if s.queue.length < s.chanCap then { s with queue := s.queue ++ [b] } else s

/-! ### The frame buffer -/

/-- FBUF[i] <- b; WRITTEN[i] <- true (R87, R103). -/
def setFrameByte (i : Nat) (b : Byte) (s : State) : State :=
  { s with fbuf := s.fbuf.setIfInBounds i b, written := s.written.setIfInBounds i true }

/-- The engine's loop over the bytes of a bulk read, from an offset upwards (R103, R105). -/
def storeFrameBytes : Nat → List Byte → State → State
  | _, [], s => s
  | i, b :: bs, s => storeFrameBytes (i + 1) bs (setFrameByte i b s)

/-- One of the unwritten bytes, none when there is none. Where there are several the spec names no one of them, so a free
value says which (R120; notes/assumptions/8.md). -/
def chooseUnwritten : List (Fin 32) → Option (Fin 32)
  | [] => none
  | [i] => some i
  | i :: j :: rest => some ((i :: j :: rest).getD (Config.freeUnwritten (i :: j :: rest)) i)

/-- Some i with not WRITTEN[i], none when all 32 bytes hold values (R38, R120). -/
def someUnwritten (written : Vector Bool 32) : Option (Fin 32) :=
  chooseUnwritten ((List.finRange 32).filter fun i => written[i] = false)

/-! ### Commands -/

/-- The accepted branch of Issue, with its BUSY test: CMD <- d, RESULT <- NONE, BUSY <- 1, then the command's entry in the
same step (R88). -/
def accept (d : Word) (entry : State → State) (s : State) : Answer :=
  if s.busy then .refused .busyWrite
  else .next (entry { s with cmd := d, result := .none, busy := true })

/-- FINISH(r): RESULT <- r, BUSY <- 0, SEQ <- IDLE (R89). -/
def finish (r : ResultCode) (s : State) : State :=
  { s with result := r, busy := false, seq := .idle }

/-- AcqFail(r): back to the loop head under POLL, else the command ends with r (R101). -/
def acqFail (r : ResultCode) (s : State) : State :=
  if s.command = some .poll then { s with seq := .pHead } else finish r s

/-! ### The deadline draw -/

/-- What `draw_expired()` answers: the next listed draw, else the free value (R153). -/
def drawValue (s : State) : Bool :=
  match s.draws with
  | [] => Config.freeDraw s.drawCount
  | b :: _ => b

/-- The state after a draw was asked. -/
def drawTaken (s : State) : State := { s with draws := s.draws.tail, drawCount := s.drawCount + 1 }

/-! ### Reset -/

/-- The reset signal with the REQ_MAX input at that moment: every register and hidden field takes its reset value (R159).
The channel (R160), the marks (R159, 90_conflicts.md C9) and the inputs to come do not change. -/
def resetSignal (reqMax : Nat) (s : State) : State :=
  { s with
    cmd := 0x0000
    result := .none
    busy := false
    pollst := .idle
    retry := 0
    cap := Config.capOf reqMax
    count := 0
    note := 0x0000
    obs := Vector.replicate 10 0
    fbuf := Vector.replicate 32 0
    written := Vector.replicate 32 false
    meas := Vector.replicate 12 0
    seq := .idle
    nidx := 0
    pfirst := false
    timer := .stopped }

/-! ### The model's marks -/

/-- FAULTED with one more reason; the set has no repeats (R146). -/
def insertFault (f : Fault) (fs : List Fault) : List Fault := if f ∈ fs then fs else fs ++ [f]

/-- Whose turn a fault came in: that agent takes no further step (R146). Only the host and the engine can fault. -/
def haltAgent (t : Turn) (s : State) : State :=
  match t with
  | .engine => { s with engineHalted := true }
  | .host _ => { s with hostHalted := true }
  | .producer _ => s
  | .reset _ => s

/-- The turn that comes next: the first one listed, and when none is listed, the first of what comes later (R22). -/
def nextTurn (s : State) : Turn :=
  match s.turns with
  | t :: _ => t
  | [] =>
    match s.later with
    | .engine => .engine
    | .again ts => ts.headD .engine
    | .free k n => Config.freeTurn k n

/-- The state whose next turn is spent. A list of turns that comes again and again is listed anew. -/
def spendTurn (s : State) : State :=
  match s.turns with
  | _ :: ts => { s with turns := ts }
  | [] =>
    match s.later with
    | .engine => s
    | .again ts => { s with turns := ts.tail }
    | .free k n => { s with later := .free k (n + 1) }

/-- The state a run goes on from after a turn (R145, R146): a fault is recorded, its agent halts and the turn is spent, with
no other effect; a refusal changes nothing but the mark REFUSED. -/
def settle (s : State) (o : Answer) : State :=
  match o with
  | .next t => t
  | .fault f => haltAgent (nextTurn s) { spendTurn s with faulted := insertFault f s.faulted }
  | .refused _ => { s with refused := true }

end Sys2Proof.Machine
end

