-- ==== Sys2Proof/Machine/Acquire.lean ====
section
/-! DEFINITION. ACQUIRE, the Frame Acquirer (42_acquire.md). -/

namespace Sys2Proof.Machine

/-- Entry(ACQUIRE) (R100). -/
def entryAcquire (s : State) : State := { s with seq := .aSample }

/-- ACQUIRE: Issue(0x0002) (R88, R100). -/
def execAcquire (s : State) : Answer := accept 0x0002 entryAcquire s

/-- ⟨A_SAMPLE⟩ (R102). -/
def stepASample (s : State) : State :=
  if chAvailable s < Config.frameLen then acqFail .insufficientData s
  else if chAvailable s = Config.frameLen then { s with seq := .aRead32 }
  else { s with seq := .rRead }

/-- ⟨A_READ32⟩ (R103). -/
def stepARead32 (s : State) : State :=
  { storeFrameBytes 0 (chReadBytes Config.frameLen s) (chReadBytesRest Config.frameLen s) with
    seq := .dExec }

/-- FBUF[0] <- MARK0, FBUF[1] <- MARK1 (R104). -/
def placeMarker (s : State) : State := setFrameByte 1 Config.mark1 (setFrameByte 0 Config.mark0 s)

/-- ⟨A_MARK⟩ (R104). -/
def stepAMark (s : State) : State :=
  if chAvailable s < Config.frameLen - 2 then acqFail .insufficientData (placeMarker s)
  else { placeMarker s with seq := .aRead30 }

/-- ⟨A_READ30⟩ (R105). -/
def stepARead30 (s : State) : State :=
  { storeFrameBytes 2 (chReadBytes (Config.frameLen - 2) s)
      (chReadBytesRest (Config.frameLen - 2) s) with
    seq := .dExec }

end Sys2Proof.Machine
end

