-- ==== Sys2Proof/Machine/Frame.lean ====
section
/-! DEFINITION. DECODE, the Frame Validator/Decoder (44_decode.md). -/

namespace Sys2Proof.Machine

/-- Entry(DECODE) (R119). -/
def entryDecode (s : State) : State := { s with seq := .dExec }

/-- DECODE: Issue(0x0004) (R88, R119). -/
def execDecode (s : State) : Answer := accept 0x0004 entryDecode s

/-- Step 2 of Decode: the sum of the bytes at offsets 0 to 29, mod 2^16 (R122). -/
def frameSum (F : Vector Byte 32) : Word :=
  BitVec.ofNat 16 (((F.toList.take 30).map BitVec.toNat).sum)

/-- Step 5 of Decode: word k, for k = 1..12, at offset 2 + 2k (R125). -/
def frameWords (F : Vector Byte 32) : Vector Word 12 :=
  Vector.ofFn fun k : Fin 12 => be16At F (2 + 2 * (k.val + 1))

/-- The checks of Decode in their order: marker, declared length, checksum (R123, R124, R126, R128). -/
def frameResult (F : Vector Byte 32) : ResultCode :=
  if frameByteAt F 0 ≠ Config.mark0 ∨ frameByteAt F 1 ≠ Config.mark1 then .headerMismatch
  else if be16At F 2 ≠ Config.lenDecl then .lengthMismatch
  else if be16At F 30 ≠ frameSum F then .checksumMismatch
  else .ok

/-- What MEAS holds after Decode: the words of a frame that passed (R127), else all zero (R121). -/
def frameMeas (F : Vector Byte 32) : Vector Word 12 :=
  if frameResult F = .ok then frameWords F else Vector.replicate 12 0

/-- The routing of a decoder result by CMD.OP (R120, R93, R106). -/
def routeDecode (r : ResultCode) (s : State) : State :=
  if s.command = some .poll then
    if r = .ok then { s with nidx := 0, seq := .nNext } else { s with seq := .pHead }
  else finish r s

/-- ⟨D_EXEC⟩ (R120): it faults while a byte of FBUF holds no value (R38). -/
def stepDExec (s : State) : Answer :=
  match someUnwritten s.written with
  | some i => .fault (.unwrittenFrameByte i)
  | none => .next (routeDecode (frameResult s.fbuf) { s with meas := frameMeas s.fbuf })

end Sys2Proof.Machine
end

