-- ==== Sys2Proof/Machine/Poll.lean ====
section
/-! DEFINITION. POLL, the Poll Loop (41_poll.md). -/

namespace Sys2Proof.Machine

/-- Entry(POLL) (R91). -/
def entryPoll (s : State) : State :=
  { s with
    retry := Config.retryInit
    pollst := .attempting
    pfirst := true
    timer := .running
    seq := .pHead }

/-- POLL: Issue(0x0001) (R88, R91). -/
def execPoll (s : State) : Answer := accept 0x0001 entryPoll s

/-- The end of a poll that ran out of retries or time (R92). -/
def pollExhausted (s : State) : State := finish .timeout { s with pollst := .exhausted }

/-- The rest of the loop head, once neither the retries nor the deadline has ended the poll (R92). -/
def pollIterate (s : State) : State :=
  { s with
    pfirst := false
    retry := s.retry - 1
    seq := if chAvailable s = 0 then .pHead else .aSample }

/-- ⟨P_HEAD⟩ (R92). The first head asks no draw. -/
def stepPHead (s : State) : State :=
  if s.retry = 0 then pollExhausted s
  else if s.pfirst then pollIterate s
  else if drawValue s then pollExhausted (drawTaken s)
  else pollIterate (drawTaken s)

end Sys2Proof.Machine
end

