-- ==== Sys2Proof/Machine/Registry.lean ====
section
/-! DEFINITION. REGISTER, NOTIFY and the notification handshake (45_registry.md). -/

namespace Sys2Proof.Machine

/-- Entry(REGISTER) (R133). -/
def entryRegister (s : State) : State := { s with seq := .gExec }

/-- REGISTER h: Issue(0x0005 | (h << 8)) (R88, R133). -/
def execRegister (h : Byte) (s : State) : Answer := accept (mkCmd h 0x5) entryRegister s

/-- ⟨G_EXEC⟩: the handle is appended, or silently dropped (R133, R134). -/
def stepGExec (s : State) : State :=
  if s.handle ≠ 0 ∧ s.count < s.cap then
    finish .ok { s with obs := s.obs.setIfInBounds s.count.toNat s.handle, count := s.count + 1 }
  else finish .ok s

/-- Entry(NOTIFY) (R137). -/
def entryNotify (s : State) : State := { s with nidx := 0, seq := .nNext }

/-- NOTIFY: Issue(0x0006) (R88, R137). -/
def execNotify (s : State) : Answer := accept 0x0006 entryNotify s

/-- ⟨N_NEXT⟩: the next notification, or the end of the command (R138, R94). -/
def stepNNext (s : State) : State :=
  if s.nidx = s.count then
    if s.command = some .poll then finish .ok { s with pollst := .succeeded } else finish .ok s
  else { s with note := noteWord s.nidx (s.obsAt s.nidx.toNat), seq := .nWait }

/-- The DONE branch of Ack: the callback returned (R139). -/
def ackReturned (s : State) : State :=
  { s with note := 0x0000, nidx := s.nidx + 1, seq := .nNext }

/-- The ERROR branch of Ack: the callback raised, and the command ends (R139). -/
def ackRaised (s : State) : State := finish .callbackError { s with note := 0x0000 }

/-- ACK DONE: Ack(0x0001) (R139). -/
def execAckDone (s : State) : Answer :=
  if notePend s = false then .refused .noPendingNotification else .next (ackReturned s)

/-- ACK ERROR: Ack(0x0002) (R139). -/
def execAckError (s : State) : Answer :=
  if notePend s = false then .refused .noPendingNotification else .next (ackRaised s)

/-- Ack(d), a host write of any word to ACK (R139). -/
def ackWrite (d : Word) (s : State) : Answer :=
  if notePend s = false then .refused .noPendingNotification
  else if d = 0x0001 then .next (ackReturned s)
  else if d = 0x0002 then .next (ackRaised s)
  else .refused .reservedAckCode

end Sys2Proof.Machine
end

