-- ==== Sys2Proof/Machine/Resync.lean ====
section
/-! DEFINITION. RESYNC, the Resynchronizer (43_resync.md). -/

namespace Sys2Proof.Machine

/-- Entry(RESYNC) (R109). -/
def entryResync (s : State) : State := { s with seq := .rRead }

/-- RESYNC: Issue(0x0003) (R88, R109). -/
def execResync (s : State) : Answer := accept 0x0003 entryResync s

/-- ⟨R_READ⟩ (R110). -/
def stepRRead (s : State) : State :=
  match chRead s with
  | none => { s with seq := .rFlush }
  | some b =>
    if b = Config.mark0 then { chReadRest s with seq := .rPeek }
    else { chReadRest s with seq := .rRead }

/-- ⟨R_PEEK⟩ (R111): nothing is consumed. -/
def stepRPeek (s : State) : State :=
  if chPeek s = some Config.mark1 then { s with seq := .rTake2 } else { s with seq := .rRead }

/-- ⟨R_TAKE2⟩ (R112). -/
def stepRTake2 (s : State) : State :=
  if s.command = some .resync then finish .ok (chReadRest s)
  else { chReadRest s with seq := .aMark }

/-- ⟨R_FLUSH⟩ (R113). -/
def stepRFlush (s : State) : State :=
  if s.command = some .resync then finish .desynchronized (chFlush s)
  else acqFail .desynchronized (chFlush s)

end Sys2Proof.Machine
end

