-- ==== Sys2Proof/Machine/Bus.lean ====
section
/-! DEFINITION. RD and WR, the two bus operations, and command issue (40_host_access.md). -/

namespace Sys2Proof.Machine

/-- The 16-bit value of a register as the bus reads it, reserved fields reading 0; ACK is write-only and reads 0
(R82, R51). For FBUF this is the value a written byte reads as. -/
def regValue (r : Reg) (s : State) : Word :=
  match r with
  | .cmd => s.cmd
  | .status => statusWord s
  | .config => configWord s
  | .note => s.note
  | .ack => 0x0000
  | .obs j => zextByte s.obs[j]
  | .fbuf i => zextByte s.fbuf[i]
  | .meas k => s.meas[k]

/-- BusRead of a register: the value goes to the host, and nothing of the block changes (R82, R64). -/
def readReg (r : Reg) (s : State) : Answer :=
  match r with
  | .fbuf i =>
    if s.written[i] = false then .fault (.unwrittenFrameByte i)
    else .next { s with busReply := some (regValue (.fbuf i) s) }
  | r => .next { s with busReply := some (regValue r s) }

/-- RD a: BusRead(a) (R82). -/
def execRd (a : BusAddr) (s : State) : Answer :=
  match regAt a with
  | none => .refused .unmappedAddress
  | some r => readReg r s

/-- The setup of a command: Entry(op) (R88). -/
def entryOf : Command → State → State
  | .poll => entryPoll
  | .acquire => entryAcquire
  | .resync => entryResync
  | .decode => entryDecode
  | .register => entryRegister
  | .notify => entryNotify

/-- The refusal a rejected transaction meets in a state: BusyWrite stands before the reserved codes of a CMD write, and
NoPendingNotification before the reserved ACK code (R147). -/
def rejection (e : DecodeError) (s : State) : Refusal :=
  match e with
  | .malformedTransaction => .malformedTransaction
  | .unmappedAddress => .unmappedAddress
  | .reservedOpcode => if s.busy then .busyWrite else .reservedOpcode
  | .reservedField => if s.busy then .busyWrite else .reservedField
  | .reservedAckCode => if notePend s then .reservedAckCode else .noPendingNotification

/-- Issue(d), a host write of any word to CMD (R88). -/
def issue (d : Word) (s : State) : Answer :=
  match checkCmd d with
  | .error e => .refused (rejection e s)
  | .ok c => accept d (entryOf c) s

/-- WriteFrameByte(i, d): DATA[15:8] is ignored (R87). -/
def writeFrameByte (i : Fin 32) (d : Word) (s : State) : Answer :=
  if s.busy then .refused .busyWrite else .next (setFrameByte i.val (lowByte d) s)

/-- WR a, d: BusWrite(a, d) (R84). A write to a read-only register is accepted and changes nothing (R85). -/
def execWr (a : BusAddr) (d : Word) (s : State) : Answer :=
  match regAt a with
  | none => .refused .unmappedAddress
  | some .cmd => issue d s
  | some .ack => ackWrite d s
  | some (.fbuf i) => writeFrameByte i d s
  | some .status => .next s
  | some .config => .next s
  | some .note => .next s
  | some (.obs _) => .next s
  | some (.meas _) => .next s

end Sys2Proof.Machine
end

