-- ==== Sys2Proof/Machine/Dispatch.lean ====
section
/-! DEFINITION. One arm per row of spec/opcode_table.json. -/

namespace Sys2Proof.Machine

def exec (i : Instr) (s : State) : Host.Outcome State Fault Refusal :=
  match i with
  | .poll => Sys2Proof.Machine.execPoll s
  | .acquire => Sys2Proof.Machine.execAcquire s
  | .resync => Sys2Proof.Machine.execResync s
  | .decode => Sys2Proof.Machine.execDecode s
  | .register h => Sys2Proof.Machine.execRegister h s
  | .notify => Sys2Proof.Machine.execNotify s
  | .ackDone => Sys2Proof.Machine.execAckDone s
  | .ackError => Sys2Proof.Machine.execAckError s
  | .rd a => Sys2Proof.Machine.execRd a s
  | .wr a d => Sys2Proof.Machine.execWr a d s

end Sys2Proof.Machine
end

