-- ==== Sys2Proof/Machine/Engine.lean ====
section
/-! DEFINITION. The engine: the micro-step SEQ names (R25, R80). -/

namespace Sys2Proof.Machine

/-- One atomic step of the engine. It has none in IDLE and in N_WAIT, where it waits (R22, R168). -/
def engineStep (s : State) : Answer :=
  match s.seq with
  | .idle => .next s
  | .gExec => .next (stepGExec s)
  | .pHead => .next (stepPHead s)
  | .aSample => .next (stepASample s)
  | .aRead32 => .next (stepARead32 s)
  | .rRead => .next (stepRRead s)
  | .rPeek => .next (stepRPeek s)
  | .rTake2 => .next (stepRTake2 s)
  | .rFlush => .next (stepRFlush s)
  | .aMark => .next (stepAMark s)
  | .aRead30 => .next (stepARead30 s)
  | .dExec => stepDExec s
  | .nNext => .next (stepNNext s)
  | .nWait => .next s

end Sys2Proof.Machine
end

