-- ==== Sys2Proof/Machine/Turn.lean ====
section
/-! DEFINITION. One turn of the machine (R22, R65): an agent's atomic step. A turn of an agent that has no step passes: it
is spent and changes nothing else. -/

namespace Sys2Proof.Machine

/-- The host's turn: its transaction is decoded (R76) and run, or refused by name (R77). A host that has faulted takes no
further step (R146). -/
def hostTurn (w : Hbt) (s : State) : Answer :=
  if s.hostHalted then .next s
  else
    match decodeHbt w with
    | .ok i => exec i s
    | .reject e => .refused (rejection e s)

/-- The engine's turn. An engine that has faulted takes no further step (R146). -/
def engineTurn (s : State) : Answer := if s.engineHalted then .next s else engineStep s

/-- One turn, in the state whose turn is spent. -/
def runTurn (t : Turn) (s : State) : Answer :=
  match t with
  | .engine => engineTurn s
  | .host w => hostTurn w s
  | .producer b => .next (chAppend b s)
  | .reset reqMax => .next (resetSignal reqMax s)

/-- The next turn is spent and run (R22). -/
def takeTurn (s : State) : Answer := runTurn (nextTurn s) (spendTurn s)

end Sys2Proof.Machine
end

