-- ==== Sys2Proof/Machine/Step.lean ====
section
/-! DEFINITION. The step of the machine, the run that goes on past a fault, and the placing of a program word. -/

namespace Sys2Proof.Machine

/-- One step: a state with REFUSED = true has none (R145), any other takes its next turn (R22). -/
def step (s : State) : Host.Outcome State Fault Refusal :=
  if s.refused then .refused .runRefused else takeTurn s

/-- The run's own transition: the next state with the marks FAULTED and REFUSED kept (R145, R146). -/
def advance (s : State) : State := settle s (step s)

/-- The state whose next turn is the host's, with the transaction of a table word. The host's program stands outside the
block (R71, R69), so this stands for the host issuing that word; notes/assumptions/5.md. -/
def State.withFetchWord (s : State) (nbits w : Nat) : State :=
  match tableHbt nbits w with
  | none => s
  | some x => { s with turns := .host x :: s.turns }

end Sys2Proof.Machine
end

