-- ==== Sys2Proof/Safety.lean ====
section
/-! DEFINITION. The invariant of the machine, what the model takes a final state to be (R145, R146), runs of several steps,
and what a whole scan or acquisition should come to (R108, R115), as the statements use them. -/

namespace Sys2Proof.Machine

/-- The commands a SEQ value is reached under (the table of R25). -/
def seqCommands : Seq → List Command
  | .idle => [.poll, .acquire, .resync, .decode, .register, .notify]
  | .gExec => [.register]
  | .pHead => [.poll]
  | .aSample => [.poll, .acquire]
  | .aRead32 => [.poll, .acquire]
  | .rRead => [.poll, .acquire, .resync]
  | .rPeek => [.poll, .acquire, .resync]
  | .rTake2 => [.poll, .acquire, .resync]
  | .rFlush => [.poll, .acquire, .resync]
  | .aMark => [.poll, .acquire]
  | .aRead30 => [.poll, .acquire]
  | .dExec => [.poll, .acquire, .decode]
  | .nNext => [.poll, .notify]
  | .nWait => [.poll, .notify]

/-- The result codes a command can end with (the table of R143). -/
def resultsOf : Command → List ResultCode
  | .poll => [.ok, .timeout, .callbackError]
  | .acquire =>
    [.ok, .insufficientData, .desynchronized, .headerMismatch, .lengthMismatch, .checksumMismatch]
  | .resync => [.ok, .desynchronized]
  | .decode => [.ok, .headerMismatch, .lengthMismatch, .checksumMismatch]
  | .register => [.ok]
  | .notify => [.ok, .callbackError]

/-- CMD holds its reset value or an accepted command word (R27). -/
def cmdLegal (d : Word) : Bool :=
  match checkCmd d with
  | .ok _ => true
  | .error _ => d == 0

/-- The POLLST a finished poll leaves, by its result (R92, R94, R139). -/
def pollstAfter : ResultCode → PollState
  | .ok => .succeeded
  | .timeout => .exhausted
  | _ => .attempting

/-- What every step keeps (the rules are cited clause by clause). -/
structure State.Inv (s : State) : Prop where
  /-- BUSY = 1 exactly when SEQ ≠ IDLE (R25). -/
  busy_iff : s.busy = true ↔ s.seq ≠ .idle
  /-- CMD is 0x0000 or the last accepted word (R27). -/
  cmd_legal : cmdLegal s.cmd = true
  /-- SEQ is reached only under the commands of its row (R25). -/
  seq_command : s.seq ≠ .idle → ∃ c ∈ seqCommands s.seq, s.command = some c
  /-- RESULT is NONE while a command runs (R29). -/
  result_busy : s.busy = true → s.result = .none
  /-- RESULT is NONE before the first command, and afterwards a code the command can end with (R143). -/
  result_idle : s.busy = false →
    (s.cmd = 0 ∧ s.result = .none) ∨ ∃ c, s.command = some c ∧ s.result ∈ resultsOf c
  /-- A running poll is ATTEMPTING and its timer runs (R31, R91). -/
  poll_running : s.busy = true → s.command = some .poll → s.pollst = .attempting ∧ s.timer = .running
  /-- A finished poll leaves the state its result names (R92, R94, R139). -/
  poll_ended : s.busy = false → s.command = some .poll → s.pollst = pollstAfter s.result
  /-- PFIRST = 1 only before the first loop head (R42, R91). -/
  pfirst_head : s.pfirst = true → s.seq = .pHead ∧ s.retry = Config.retryInit
  /-- After the first loop head of a poll some retry is spent (R92). -/
  retry_spent : s.busy = true → s.command = some .poll → s.pfirst = false → s.retry ≠ Config.retryInit
  /-- COUNT ≤ CAP ≤ 10 (R33). -/
  count_le : s.count ≤ s.cap
  cap_le : s.cap ≤ 10
  /-- Slots 0 to COUNT−1 hold nonzero handles, the others read 0 (R36). -/
  obs_slots : ∀ j : Fin 10, j.val < s.count.toNat ↔ s.obs[j] ≠ 0
  /-- NIDX holds 0 to 10 (R41). -/
  nidx_le : s.nidx ≤ 10
  /-- NIDX names a slot to notify, or stands at COUNT (R138). -/
  nidx_next : s.seq = .nNext → s.nidx ≤ s.count
  nidx_wait : s.seq = .nWait → s.nidx < s.count
  /-- While a notification is pending NOTE shows it, else all of NOTE reads 0 (R34). -/
  note_wait : s.seq = .nWait → s.note = noteWord s.nidx (s.obsAt s.nidx.toNat)
  note_idle : s.seq ≠ .nWait → s.note = 0
  /-- The channel holds at most CHAN_CAP bytes (R54). -/
  queue_le : s.queue.length ≤ s.chanCap
  /-- Every bulk read finds the bytes it asks for (R61). -/
  read32_bytes : s.seq = .aRead32 → 32 ≤ s.queue.length
  read30_bytes : s.seq = .aRead30 → 30 ≤ s.queue.length
  /-- R_TAKE2 reads the 0x4D that R_PEEK saw (R112). -/
  take2_head : s.seq = .rTake2 → s.queue.head? = some Config.mark1
  /-- The marker stands in FBUF[0..1] before the 30-byte read (R104). -/
  read30_marker : s.seq = .aRead30 →
    s.fbuf[0] = Config.mark0 ∧ s.fbuf[1] = Config.mark1 ∧ s.written[0] = true ∧ s.written[1] = true
  /-- An acquisition that reaches D_EXEC has written all 32 bytes (R107). -/
  acquired_written : s.seq = .dExec → s.command ≠ some .decode → ∀ i : Fin 32, s.written[i] = true

/-- A state without a mark: no refusal, no fault (R145, R146), and neither agent halted (DESIGN CHOICE,
notes/assumptions/19.md). -/
def State.Unmarked (s : State) : Prop :=
  s.refused = false ∧ s.faulted = [] ∧ s.hostHalted = false ∧ s.engineHalted = false

/-- A final state. R145 and R146 say only which states are not final: those with REFUSED = true or FAULTED ≠ ∅. That a final
state also has no halted agent, SEQ = IDLE, no turn listed and the engine alone to go on is the model's, since the spec leaves
it open (DESIGN CHOICE, notes/assumptions/19.md). -/
def State.Final (s : State) : Prop := s.Unmarked ∧ s.seq = .idle ∧ s.turns = [] ∧ s.later = .engine

/-- A safe step: it answers a next state, neither a fault nor a refusal (R145, R146). -/
def State.SafeStep (s : State) : Prop := ∃ t, step s = .next t

/-- k steps, stopping at the first fault or refusal. -/
def stepN : Nat → State → Answer
  | 0, s => .next s
  | k + 1, s =>
    match step s with
    | .next t => stepN k t
    | .fault f => .fault f
    | .refused r => .refused r

/-- What stands in the channel behind the first marker pair, none when there is no pair (R114). -/
def afterMarker : List Byte → Option (List Byte)
  | [] => none
  | [_] => none
  | b :: c :: rest =>
    if b = Config.mark0 ∧ c = Config.mark1 then some rest else afterMarker (c :: rest)

/-- The frame an acquisition reads and the bytes it leaves, or its failure and the bytes it leaves, with no producer steps
during it (R102 to R105, R108, R113). -/
def acquisition (q : List Byte) : Except ResultCode (List Byte) × List Byte :=
  if q.length < 32 then (.error .insufficientData, q)
  else if q.length = 32 then (.ok q, [])
  else
    match afterMarker q with
    | none => (.error .desynchronized, [])
    | some rest =>
      if rest.length < 30 then (.error .insufficientData, rest)
      else (.ok (Config.mark0 :: Config.mark1 :: rest.take 30), rest.drop 30)

end Sys2Proof.Machine
end

