-- ==== Sys2Proof/Certificates/Slice0/Obligations.lean ====
section
/-! DEFINITION. The statements for the provers. Each docstring names the rules of spec/ it formalises. Engine steps are
stated about `engineStep`; `EngineTurnRunsMicroStep` and `StepRunsDecodedInstruction` carry them to `step`. -/

open Sys2Proof Sys2Proof.Machine

/-! ### Encoding -/

/-- Words written out from the tables of R71, R75 and R81 decode to their rows. -/
def Obligations.SampleWordsDecode : Prop :=
  decodeHbt 0x1000001 = .ok .poll ∧ decodeHbt 0x1000002 = .ok .acquire ∧
  decodeHbt 0x1000003 = .ok .resync ∧ decodeHbt 0x1000004 = .ok .decode ∧
  decodeHbt 0x1000105 = .ok (.register 1) ∧ decodeHbt 0x1000006 = .ok .notify ∧
  decodeHbt 0x1040001 = .ok .ackDone ∧ decodeHbt 0x1040002 = .ok .ackError ∧
  decodeHbt 0x04B0000 = .ok (.rd 0x4B) ∧ decodeHbt 0x13F00CC = .ok (.wr 0x3F 0x00CC)

/-- R75: the opcode map, over all 65536 CMD words. -/
def Obligations.CmdWordsMatchOpcodeMap : Prop :=
  ∀ d : Word,
    (decodeCmd d = .ok .poll ↔ d = 0x0001) ∧ (decodeCmd d = .ok .acquire ↔ d = 0x0002) ∧
    (decodeCmd d = .ok .resync ↔ d = 0x0003) ∧ (decodeCmd d = .ok .decode ↔ d = 0x0004) ∧
    (∀ h : Byte, decodeCmd d = .ok (.register h) ↔
      d &&& 0x00FF = 0x0005 ∧ h.toNat = d.toNat / 256) ∧
    (decodeCmd d = .ok .notify ↔ d = 0x0006) ∧
    (d.toNat % 16 = 0 ∨ 7 ≤ d.toNat % 16 → decodeCmd d = .reject .reservedOpcode)

/-- R73: the two ACK words; every other word is reserved (R77). -/
def Obligations.AckWordsAreDoneAndError : Prop :=
  ∀ d : Word,
    (decodeAck d = .ok .ackDone ↔ d = 0x0001) ∧ (decodeAck d = .ok .ackError ↔ d = 0x0002) ∧
    (decodeAck d = .reject .reservedAckCode ↔ d ≠ 0x0001 ∧ d ≠ 0x0002)

/-- R76: the order in which one host step is decoded. -/
def Obligations.HostStepDecodingOrder : Prop :=
  ∀ (a : BusAddr) (d : Word),
    (d ≠ 0 → decodeHbt (mkHbt false a d) = .reject .malformedTransaction) ∧
    (regAt a = none → decodeHbt (mkHbt false a 0) = .reject .unmappedAddress ∧
      decodeHbt (mkHbt true a d) = .reject .unmappedAddress) ∧
    decodeHbt (mkHbt true 0x00 d) = decodeCmd d ∧
    decodeHbt (mkHbt true 0x04 d) = decodeAck d ∧
    (regAt a ≠ none → decodeHbt (mkHbt false a 0) = .ok (.rd a)) ∧
    (regAt a ≠ none → a ≠ 0x00 → a ≠ 0x04 → decodeHbt (mkHbt true a d) = .ok (.wr a d))

/-- The register map of R47, address by address. -/
def Obligations.RegisterMapPlacesEveryRegister : Prop :=
  ∀ a : BusAddr,
    (regAt a = some .cmd ↔ a.toNat = 0x00) ∧ (regAt a = some .status ↔ a.toNat = 0x01) ∧
    (regAt a = some .config ↔ a.toNat = 0x02) ∧ (regAt a = some .note ↔ a.toNat = 0x03) ∧
    (regAt a = some .ack ↔ a.toNat = 0x04) ∧
    (∀ j : Fin 10, regAt a = some (.obs j) ↔ a.toNat = 0x10 + j.val) ∧
    (∀ i : Fin 32, regAt a = some (.fbuf i) ↔ a.toNat = 0x20 + i.val) ∧
    (∀ k : Fin 12, regAt a = some (.meas k) ↔ a.toNat = 0x40 + k.val) ∧
    (regAt a = none ↔ (0x05 ≤ a.toNat ∧ a.toNat ≤ 0x0F) ∨ (0x1A ≤ a.toNat ∧ a.toNat ≤ 0x1F) ∨
      0x4C ≤ a.toNat)

/-- Decoding the encoding of any well-formed instruction gives it back, every operand at every value. -/
def Obligations.DecodeEncodeRoundTrip : Prop :=
  ∀ i : Instr, i.wf = true → decodeHbt (encode i) = .ok i

/-- Every word the decoder accepts is the encoding of the one well-formed instruction it reads. -/
def Obligations.AcceptedWordIsAnEncoding : Prop :=
  ∀ (w : Hbt) (i : Instr), decodeHbt w = .ok i → i.wf = true ∧ encode i = w

/-! ### The step -/

/-- A host turn whose transaction decodes is the instruction's meaning, in the state whose turn is spent (how turns are
listed is the model's, log 11). -/
def Obligations.StepRunsDecodedInstruction : Prop :=
  ∀ (s : State) (w : Hbt) (i : Instr),
    s.refused = false → s.hostHalted = false → nextTurn s = .host w → decodeHbt w = .ok i →
    step s = exec i (spendTurn s) ∧
    ∀ rest, s.turns = .host w :: rest → step s = exec i { s with turns := rest }

/-- A host turn whose transaction is rejected is refused, with the reason R147 puts first. -/
def Obligations.StepRefusesRejectedTransaction : Prop :=
  ∀ (s : State) (w : Hbt),
    s.refused = false → s.hostHalted = false → nextTurn s = .host w →
    (decodeHbt w = .reject .malformedTransaction → step s = .refused .malformedTransaction) ∧
    (decodeHbt w = .reject .unmappedAddress → step s = .refused .unmappedAddress) ∧
    (decodeHbt w = .reject .reservedOpcode →
      step s = .refused (if s.busy then .busyWrite else .reservedOpcode)) ∧
    (decodeHbt w = .reject .reservedField →
      step s = .refused (if s.busy then .busyWrite else .reservedField)) ∧
    (decodeHbt w = .reject .reservedAckCode →
      step s = .refused (if s.note.getLsbD 15 then .reservedAckCode else .noPendingNotification))

/-- A rejected write is refused exactly as BusWrite refuses it (R84, R76). -/
def Obligations.RejectedWriteIsBusWriteRefusal : Prop :=
  ∀ (s : State) (a : BusAddr) (d : Word) (e : DecodeError),
    decodeHbt (mkHbt true a d) = .reject e → exec (.wr a d) s = .refused (rejection e s)

/-- A decoded write does exactly what BusWrite of its address and data does (R84, R76). -/
def Obligations.DecodedWriteIsBusWrite : Prop :=
  ∀ (s : State) (a : BusAddr) (d : Word) (i : Instr),
    decodeHbt (mkHbt true a d) = .ok i → exec (.wr a d) s = exec i s

/-- A table word placed by `withFetchWord` is what the very next step runs. -/
def Obligations.PlacedTableWordRunsNext : Prop :=
  ∀ (s : State) (nbits w : Nat) (i : Instr),
    s.refused = false → s.hostHalted = false → decodeTableWord nbits w = some i →
    step (s.withFetchWord nbits w) = exec i s

/-- An engine turn, listed or later, is the micro-step of SEQ (R22; how turns are listed is the model's, log 11). -/
def Obligations.EngineTurnRunsMicroStep : Prop :=
  ∀ s : State, s.refused = false → s.engineHalted = false →
    (nextTurn s = .engine → step s = engineStep (spendTurn s)) ∧
    (s.turns = [] → s.later = .engine → step s = engineStep s) ∧
    (∀ rest, s.turns = .engine :: rest → step s = engineStep { s with turns := rest }) ∧
    (s.seq = .idle ∨ s.seq = .nWait → engineStep s = .next s)

/-! ### RD and WR -/

/-- R82: BusRead of every address, busy or not; unused OBS slots and an empty NOTE read 0. That the word read is kept in
`busReply` is the model's choice, log 12. -/
def Obligations.RdReturnsTheRegister : Prop :=
  ∀ s : State,
    exec (.rd 0x00) s = .next { s with busReply := some s.cmd } ∧
    (∃ v : Word, exec (.rd 0x01) s = .next { s with busReply := some v } ∧
      v.toNat = (resultBits s.result).toNat + 16 * s.busy.toNat + 32 * (pollBits s.pollst).toNat +
        256 * s.retry.toNat) ∧
    (∃ v : Word, exec (.rd 0x02) s = .next { s with busReply := some v } ∧
      v.toNat = s.cap.toNat + 16 * s.count.toNat) ∧
    exec (.rd 0x03) s = .next { s with busReply := some s.note } ∧
    exec (.rd 0x04) s = .next { s with busReply := some 0x0000 } ∧
    (∀ j : Fin 10, exec (.rd (BitVec.ofNat 8 (0x10 + j.val))) s =
      .next { s with busReply := some (s.obs[j].setWidth 16) }) ∧
    (∀ i : Fin 32, s.written[i] = true → exec (.rd (BitVec.ofNat 8 (0x20 + i.val))) s =
      .next { s with busReply := some (s.fbuf[i].setWidth 16) }) ∧
    (∀ i : Fin 32, s.written[i] = false → exec (.rd (BitVec.ofNat 8 (0x20 + i.val))) s =
      .fault (.unwrittenFrameByte i)) ∧
    (∀ k : Fin 12, exec (.rd (BitVec.ofNat 8 (0x40 + k.val))) s =
      .next { s with busReply := some s.meas[k] }) ∧
    (∀ a : BusAddr, regAt a = none → exec (.rd a) s = .refused .unmappedAddress) ∧
    (s.Inv → ∀ j : Fin 10, s.count.toNat ≤ j.val →
      exec (.rd (BitVec.ofNat 8 (0x10 + j.val))) s = .next { s with busReply := some 0x0000 }) ∧
    (s.Inv → s.note.getLsbD 15 = false →
      exec (.rd 0x03) s = .next { s with busReply := some 0x0000 })

/-- R85: a write to a read-only register is accepted and changes nothing, busy or not. -/
def Obligations.WrReadOnlyChangesNothing : Prop :=
  ∀ (s : State) (d : Word) (r : Reg),
    (r = .status ∨ r = .config ∨ r = .note ∨ (∃ j, r = .obs j) ∨ (∃ k, r = .meas k)) →
    exec (.wr (regAddr r) d) s = .next s

/-- R87: a host write to FBUF[i] while BUSY = 0 stores DATA[7:0] in that byte alone. -/
def Obligations.WrFrameByteStoresLowByte : Prop :=
  ∀ (s : State) (i : Fin 32) (d : Word),
    (s.busy = true → exec (.wr (BitVec.ofNat 8 (0x20 + i.val)) d) s = .refused .busyWrite) ∧
    (s.busy = false → ∃ t, exec (.wr (BitVec.ofNat 8 (0x20 + i.val)) d) s = .next t ∧
      t.fbuf[i].toNat = d.toNat % 256 ∧ t.written[i] = true ∧
      (∀ j : Fin 32, j ≠ i → t.fbuf[j] = s.fbuf[j] ∧ t.written[j] = s.written[j]) ∧
      t = { s with fbuf := t.fbuf, written := t.written })

/-- R86: while BUSY = 1 every write to CMD and to FBUF is refused, the six commands among them. -/
def Obligations.BusyRefusesCommandAndFrameWrites : Prop :=
  ∀ s : State, s.busy = true →
    (∀ d : Word, exec (.wr 0x00 d) s = .refused .busyWrite) ∧
    (∀ (i : Fin 32) (d : Word), exec (.wr (regAddr (.fbuf i)) d) s = .refused .busyWrite) ∧
    exec .poll s = .refused .busyWrite ∧ exec .acquire s = .refused .busyWrite ∧
    exec .resync s = .refused .busyWrite ∧ exec .decode s = .refused .busyWrite ∧
    (∀ h, exec (.register h) s = .refused .busyWrite) ∧ exec .notify s = .refused .busyWrite

/-- R88: a write of any word to CMD, and that nothing else starts a command. -/
def Obligations.IssueChecksAndStartsCommand : Prop :=
  (∀ s t : State, step s = .next t → s.busy = false → t.busy = true →
    ∃ d : Word, nextTurn s = .host (mkHbt true 0x00 d) ∧ t.cmd = d) ∧
  ∀ (s : State) (d : Word),
    (s.busy = true → exec (.wr 0x00 d) s = .refused .busyWrite) ∧
    (s.busy = false → d.toNat % 16 = 0 ∨ 7 ≤ d.toNat % 16 →
      exec (.wr 0x00 d) s = .refused .reservedOpcode) ∧
    (s.busy = false → 1 ≤ d.toNat % 16 → d.toNat % 16 ≤ 6 → d.toNat / 16 % 16 ≠ 0 →
      exec (.wr 0x00 d) s = .refused .reservedField) ∧
    (s.busy = false → 1 ≤ d.toNat % 16 → d.toNat % 16 ≤ 6 → d.toNat % 16 ≠ 5 →
      d.toNat / 256 ≠ 0 → exec (.wr 0x00 d) s = .refused .reservedField) ∧
    (s.busy = false → 1 ≤ d.toNat % 16 → d.toNat % 16 ≤ 6 → d.toNat / 16 % 16 = 0 →
      (d.toNat % 16 = 5 ∨ d.toNat / 256 = 0) →
      ∃ t, exec (.wr 0x00 d) s = .next t ∧ t.cmd = d ∧ t.result = .none ∧ t.busy = true ∧
        (d.toNat % 16 = 1 → exec .poll s = .next t ∧ t.seq = .pHead) ∧
        (d.toNat % 16 = 2 → exec .acquire s = .next t ∧ t.seq = .aSample) ∧
        (d.toNat % 16 = 3 → exec .resync s = .next t ∧ t.seq = .rRead) ∧
        (d.toNat % 16 = 4 → exec .decode s = .next t ∧ t.seq = .dExec) ∧
        (d.toNat % 16 = 5 →
          exec (.register (BitVec.ofNat 8 (d.toNat / 256))) s = .next t ∧ t.seq = .gExec) ∧
        (d.toNat % 16 = 6 → exec .notify s = .next t ∧ t.seq = .nNext))

/-! ### Command entries -/

/-- R91: POLL from idle; every other part of the state is unchanged. -/
def Obligations.PollStartsAPollSession : Prop :=
  ∀ s : State, s.busy = false → exec .poll s = .next { s with
    cmd := 0x0001
    result := .none
    busy := true
    retry := 3
    pollst := .attempting
    pfirst := true
    timer := .running
    seq := .pHead }

/-- R100, R109, R119: ACQUIRE, RESYNC and DECODE from idle; all else, POLLST, RETRY, FBUF and MEAS among it, is unchanged. -/
def Obligations.AcquireResyncDecodeStart : Prop :=
  ∀ s : State, s.busy = false →
    exec .acquire s =
      .next { s with cmd := 0x0002, result := .none, busy := true, seq := .aSample } ∧
    exec .resync s =
      .next { s with cmd := 0x0003, result := .none, busy := true, seq := .rRead } ∧
    exec .decode s =
      .next { s with cmd := 0x0004, result := .none, busy := true, seq := .dExec }

/-- R133, R137: REGISTER h and NOTIFY from idle; all else is unchanged. -/
def Obligations.RegisterNotifyStart : Prop :=
  ∀ s : State, s.busy = false →
    (∀ h : Byte, ∃ t, exec (.register h) s = .next t ∧ t.cmd.toNat = 5 + 256 * h.toNat ∧
      t = { s with cmd := t.cmd, result := .none, busy := true, seq := .gExec }) ∧
    exec .notify s = .next { s with
      cmd := 0x0006, result := .none, busy := true, nidx := 0, seq := .nNext }

/-! ### The notification handshake -/

/-- R139: Ack of any word, and the two ACK rows. -/
def Obligations.AckAnswersThePendingNotification : Prop :=
  ∀ s : State,
    (s.note.getLsbD 15 = false → exec .ackDone s = .refused .noPendingNotification ∧
      exec .ackError s = .refused .noPendingNotification ∧
      ∀ d, exec (.wr 0x04 d) s = .refused .noPendingNotification) ∧
    (s.note.getLsbD 15 = true →
      exec .ackDone s = .next { s with note := 0, nidx := s.nidx + 1, seq := .nNext } ∧
      exec .ackError s =
        .next { s with note := 0, result := .callbackError, busy := false, seq := .idle } ∧
      exec (.wr 0x04 0x0001) s = exec .ackDone s ∧ exec (.wr 0x04 0x0002) s = exec .ackError s ∧
      ∀ d, d ≠ 0x0001 → d ≠ 0x0002 → exec (.wr 0x04 d) s = .refused .reservedAckCode)

/-- R138: the next notification, or the end of NOTIFY and of a successful POLL (R94). -/
def Obligations.NextNotificationOrEnd : Prop :=
  ∀ s : State, s.seq = .nNext →
    (s.nidx = s.count → s.command = some .poll → engineStep s = .next { s with
      pollst := .succeeded, result := .ok, busy := false, seq := .idle }) ∧
    (s.nidx = s.count → s.command = some .notify →
      engineStep s = .next { s with result := .ok, busy := false, seq := .idle }) ∧
    (∀ h : s.nidx.toNat < 10, s.nidx ≠ s.count → ∃ t, engineStep s = .next t ∧
      t.note.toNat = 0x8000 + 0x100 * s.nidx.toNat + s.obs[s.nidx.toNat].toNat ∧
      t = { s with note := t.note, seq := .nWait })

/-- R133: ⟨G_EXEC⟩ appends the handle, or drops it silently, and ends OK either way. -/
def Obligations.RegisterAppendsOrDrops : Prop :=
  ∀ s : State, s.seq = .gExec → s.cap ≤ 10 →
    (∀ h : s.count.toNat < 10, s.cmd.toNat / 256 ≠ 0 → s.count < s.cap →
      engineStep s = .next { s with
        obs := s.obs.set s.count.toNat (BitVec.ofNat 8 (s.cmd.toNat / 256)) h
        count := s.count + 1
        result := .ok
        busy := false
        seq := .idle }) ∧
    (s.cmd.toNat / 256 = 0 ∨ ¬ s.count < s.cap →
      engineStep s = .next { s with result := .ok, busy := false, seq := .idle })

/-! ### The poll loop and the acquirer -/

/-- R92: the loop head. How draws are listed and counted, and that with no draw listed the answer is a free value, so that
either branch may be taken, is the model's choice, log 4. -/
def Obligations.PollHeadRetriesOrEnds : Prop :=
  ∀ s : State, s.seq = .pHead →
    let ended (t : State) : Answer := .next { t with
      pollst := .exhausted, result := .timeout, busy := false, seq := .idle }
    let iterated (t : State) : Answer := .next { t with
      pfirst := false
      retry := s.retry - 1
      seq := if s.queue.length = 0 then .pHead else .aSample }
    (s.retry = 0 → engineStep s = ended s) ∧
    (s.retry ≠ 0 → s.pfirst = true → engineStep s = iterated s) ∧
    (∀ ds, s.retry ≠ 0 → s.pfirst = false → s.draws = true :: ds →
      engineStep s = ended { s with draws := ds, drawCount := s.drawCount + 1 }) ∧
    (∀ ds, s.retry ≠ 0 → s.pfirst = false → s.draws = false :: ds →
      engineStep s = iterated { s with draws := ds, drawCount := s.drawCount + 1 }) ∧
    (s.retry ≠ 0 → s.pfirst = false → s.draws = [] →
      engineStep s = ended { s with drawCount := s.drawCount + 1 } ∨
      engineStep s = iterated { s with drawCount := s.drawCount + 1 })

/-- R102: the three cases of the byte count; a short count consumes nothing (R101). -/
def Obligations.AcquirerSamplesByteCount : Prop :=
  ∀ s : State, s.seq = .aSample →
    (s.queue.length < 32 → s.command = some .poll →
      engineStep s = .next { s with seq := .pHead }) ∧
    (s.queue.length < 32 → s.command = some .acquire → engineStep s =
      .next { s with result := .insufficientData, busy := false, seq := .idle }) ∧
    (s.queue.length = 32 → engineStep s = .next { s with seq := .aRead32 }) ∧
    (32 < s.queue.length → engineStep s = .next { s with seq := .rRead })

/-- R103: the direct read moves the 32 oldest bytes into FBUF, in order. -/
def Obligations.DirectReadFillsFrame : Prop :=
  ∀ s : State, s.seq = .aRead32 → 32 ≤ s.queue.length →
    ∃ t, engineStep s = .next t ∧ t.fbuf.toList = s.queue.take 32 ∧
      (∀ i : Fin 32, t.written[i] = true) ∧ t.queue = s.queue.drop 32 ∧
      t = { s with fbuf := t.fbuf, written := t.written, queue := t.queue, seq := .dExec }

/-- R104: the marker is placed, and a shortfall keeps the rest of FBUF and the channel. -/
def Obligations.MarkerPlacedAfterResync : Prop :=
  ∀ s : State, s.seq = .aMark →
    let marked : State := { s with
      fbuf := (s.fbuf.set 0 0x42).set 1 0x4D, written := (s.written.set 0 true).set 1 true }
    (s.queue.length < 30 → s.command = some .poll →
      engineStep s = .next { marked with seq := .pHead }) ∧
    (s.queue.length < 30 → s.command = some .acquire → engineStep s =
      .next { marked with result := .insufficientData, busy := false, seq := .idle }) ∧
    (30 ≤ s.queue.length → engineStep s = .next { marked with seq := .aRead30 })

/-- R105: the post-resync read moves the 30 oldest bytes into FBUF[2..31], in order. -/
def Obligations.PostResyncReadFillsFrame : Prop :=
  ∀ s : State, s.seq = .aRead30 → 30 ≤ s.queue.length →
    ∃ t, engineStep s = .next t ∧
      t.fbuf.toList = s.fbuf.toList.take 2 ++ s.queue.take 30 ∧
      t.written.toList = s.written.toList.take 2 ++ List.replicate 30 true ∧
      t.queue = s.queue.drop 30 ∧
      t = { s with fbuf := t.fbuf, written := t.written, queue := t.queue, seq := .dExec }

/-! ### The resynchronizer -/

/-- R110: the scan step. -/
def Obligations.ScanReadsOneByte : Prop :=
  ∀ s : State, s.seq = .rRead →
    (s.queue = [] → engineStep s = .next { s with seq := .rFlush }) ∧
    (∀ rest, s.queue = 0x42 :: rest →
      engineStep s = .next { s with queue := rest, seq := .rPeek }) ∧
    (∀ b rest, s.queue = b :: rest → b ≠ 0x42 →
      engineStep s = .next { s with queue := rest, seq := .rRead })

/-- R111: the second-marker test consumes nothing. -/
def Obligations.ScanPeeksSecondMarker : Prop :=
  ∀ s : State, s.seq = .rPeek →
    (s.queue.head? = some 0x4D → engineStep s = .next { s with seq := .rTake2 }) ∧
    (s.queue.head? ≠ some 0x4D → engineStep s = .next { s with seq := .rRead })

/-- R112: the second marker byte is consumed; RESYNC ends, an acquisition goes on. -/
def Obligations.ScanTakesSecondMarker : Prop :=
  ∀ (s : State) (rest : List Byte), s.seq = .rTake2 → s.queue = 0x4D :: rest →
    (s.command = some .resync → engineStep s =
      .next { s with queue := rest, result := .ok, busy := false, seq := .idle }) ∧
    (s.command = some .poll ∨ s.command = some .acquire →
      engineStep s = .next { s with queue := rest, seq := .aMark })

/-- R113: a failed scan empties the channel. -/
def Obligations.FailedScanFlushesChannel : Prop :=
  ∀ s : State, s.seq = .rFlush →
    (s.command = some .resync ∨ s.command = some .acquire → engineStep s =
      .next { s with queue := [], result := .desynchronized, busy := false, seq := .idle }) ∧
    (s.command = some .poll → engineStep s = .next { s with queue := [], seq := .pHead })

/-! ### The decoder -/

/-- R121 to R128: the result of Decode and the MEAS it leaves, for every 32 bytes. -/
def Obligations.DecodeChecksInOrder : Prop :=
  ∀ F : Vector Byte 32,
    let sum := ((F.toList.take 30).map BitVec.toNat).sum % 65536
    let badMarker := F[0] ≠ 0x42 ∨ F[1] ≠ 0x4D
    let badLength := F[2].toNat * 256 + F[3].toNat ≠ 28
    let badSum := F[30].toNat * 256 + F[31].toNat ≠ sum
    (badMarker → frameResult F = .headerMismatch) ∧
    (¬ badMarker → badLength → frameResult F = .lengthMismatch) ∧
    (¬ badMarker → ¬ badLength → badSum → frameResult F = .checksumMismatch) ∧
    (¬ badMarker → ¬ badLength → ¬ badSum → frameResult F = .ok ∧
      ∀ k : Fin 12, (frameMeas F)[k].toNat =
        (F.toList.getD (4 + 2 * k.val) 0).toNat * 256 + (F.toList.getD (5 + 2 * k.val) 0).toNat) ∧
    (frameResult F ≠ .ok → ∀ k : Fin 12, (frameMeas F)[k] = 0)

/-- R120: ⟨D_EXEC⟩ faults on an unwritten byte, else writes MEAS and routes the result by CMD.OP. -/
def Obligations.DecodeStepRoutesResult : Prop :=
  ∀ s : State, s.seq = .dExec →
    ((∃ i : Fin 32, s.written[i] = false) → ∃ i : Fin 32, s.written[i] = false ∧
      engineStep s = .fault (.unwrittenFrameByte i)) ∧
    ((∀ i : Fin 32, s.written[i] = true) →
      (s.command = some .decode ∨ s.command = some .acquire → engineStep s = .next { s with
        meas := frameMeas s.fbuf, result := frameResult s.fbuf, busy := false, seq := .idle }) ∧
      (s.command = some .poll → frameResult s.fbuf = .ok → engineStep s =
        .next { s with meas := frameMeas s.fbuf, nidx := 0, seq := .nNext }) ∧
      (s.command = some .poll → frameResult s.fbuf ≠ .ok → engineStep s =
        .next { s with meas := frameMeas s.fbuf, seq := .pHead }))

/-- R130: the sum never wraps, and a frame that passes marker and length sums to between 171 and 6801. -/
def Obligations.FrameSumBounds : Prop :=
  ∀ F : Vector Byte 32,
    (frameSum F).toNat = ((F.toList.take 30).map BitVec.toNat).sum ∧ (frameSum F).toNat ≤ 7650 ∧
    (frameResult F ≠ .headerMismatch → frameResult F ≠ .lengthMismatch →
      (frameSum F).toNat = 171 + (((F.toList.drop 4).take 26).map BitVec.toNat).sum ∧
      171 ≤ (frameSum F).toNat ∧ (frameSum F).toNat ≤ 6801 ∧
      (6801 < F[30].toNat * 256 + F[31].toNat → frameResult F = .checksumMismatch))

/-- R131: one changed byte among the first 30 of a good frame moves the sum by its own change, and is always found, and by
which check. -/
def Obligations.SingleByteChangeIsDetected : Prop :=
  ∀ (F : Vector Byte 32) (j : Fin 32) (b : Byte),
    frameResult F = .ok → j.val ≤ 29 → b ≠ F[j] →
    (frameSum (F.set j b)).toNat + F[j].toNat = (frameSum F).toNat + b.toNat ∧
    (j.val ≤ 1 → frameResult (F.set j b) = .headerMismatch) ∧
    (2 ≤ j.val → j.val ≤ 3 → frameResult (F.set j b) = .lengthMismatch) ∧
    (4 ≤ j.val → frameResult (F.set j b) = .checksumMismatch)

/-- R132: the checksum's blind spot: any reordering of bytes 4 to 29 of a good frame still decodes OK. -/
def Obligations.ReorderedBytesStillDecode : Prop :=
  ∀ F G : Vector Byte 32, frameResult F = .ok →
    G.toList.take 4 = F.toList.take 4 → G.toList.drop 30 = F.toList.drop 30 →
    ((G.toList.drop 4).take 26).Perm ((F.toList.drop 4).take 26) → frameResult G = .ok

/-- R129: the result and the MEAS of a direct DECODE depend on FBUF alone. -/
def Obligations.DecodeDependsOnFrameOnly : Prop :=
  ∀ s s' t t' : State, s.seq = .dExec → s'.seq = .dExec → s.command = some .decode →
    s'.command = some .decode → s.fbuf = s'.fbuf → engineStep s = .next t →
    engineStep s' = .next t' →
    t.result = t'.result ∧ t.meas = t'.meas ∧ t.fbuf = s.fbuf ∧ t.queue = s.queue

/-! ### Invariants and whole-machine rules -/

/-- Every step of every agent keeps the invariant. -/
def Obligations.StepKeepsInvariant : Prop :=
  ∀ s t : State, s.Inv → step s = .next t → t.Inv

/-- The invariant holds at the start of a run, for every REQ_MAX and every CHAN_CAP. -/
def Obligations.InvariantAtPowerOn : Prop :=
  ∀ reqMax chanCap : Nat, (State.powerOn reqMax chanCap).Inv

/-- R39: MEAS is written by ⟨D_EXEC⟩ and by reset, and by nothing else. -/
def Obligations.OnlyDecodeWritesMeas : Prop :=
  ∀ s t : State, step s = .next t → t.meas ≠ s.meas →
    (nextTurn s = .engine ∧ s.seq = .dExec) ∨ ∃ r, nextTurn s = .reset r

/-- R27, R29: CMD and RESULT change together, by an accepted CMD write; RESULT alone by FINISH, which clears BUSY. -/
def Obligations.CmdHoldsLastAcceptedWord : Prop :=
  ∀ s t : State, s.Inv → step s = .next t → (∀ r, nextTurn s ≠ .reset r) →
    (t.cmd ≠ s.cmd → ∃ d : Word, nextTurn s = .host (mkHbt true 0x00 d) ∧ t.cmd = d ∧
      s.busy = false ∧ t.busy = true ∧ t.result = .none) ∧
    (t.result ≠ s.result →
      t.busy = true ∧ t.result = .none ∧ s.busy = false ∨ s.busy = true ∧ t.busy = false ∧ t.seq = .idle)

/-- R33, R36, R136: CAP never moves, and registered slots are kept, until reset; only ⟨G_EXEC⟩ adds one. -/
def Obligations.RegistryOnlyGrowsUntilReset : Prop :=
  ∀ s t : State, s.Inv → step s = .next t → (∀ r, nextTurn s ≠ .reset r) →
    t.cap = s.cap ∧ s.count.toNat ≤ t.count.toNat ∧ t.count.toNat ≤ s.count.toNat + 1 ∧
    t.count.toNat ≤ t.cap.toNat ∧
    (∀ j : Fin 10, j.val < s.count.toNat → t.obs[j] = s.obs[j]) ∧
    (t.count ≠ s.count ∨ t.obs ≠ s.obs → nextTurn s = .engine ∧ s.seq = .gExec)

/-- R31, R32, D26: POLLST and RETRY move only under POLL, or at reset. -/
def Obligations.OnlyPollWritesPollstAndRetry : Prop :=
  ∀ s t : State, s.Inv → step s = .next t → (∀ r, nextTurn s ≠ .reset r) →
    (t.pollst ≠ s.pollst ∨ t.retry ≠ s.retry) → t.command = some .poll

/-- R54, R60, R66, R160: only the engine removes channel bytes, from the front; the producer appends at most one at the
tail. That a producer's turn on a full channel passes is the model's choice, log 10. -/
def Obligations.ChannelMovesInOrder : Prop :=
  ∀ s t : State, step s = .next t →
    (nextTurn s = .engine → ∃ n, t.queue = s.queue.drop n) ∧
    (∀ b, nextTurn s = .producer b →
      t.queue = if s.queue.length < s.chanCap then s.queue ++ [b] else s.queue) ∧
    ((∃ w, nextTurn s = .host w) ∨ (∃ r, nextTurn s = .reset r) → t.queue = s.queue)

/-- R159, R160: the reset signal in any state, with any REQ_MAX. FBUF's bytes hold no value, so nothing is said of them. That
a halted agent stays halted is deduced, log 14; that the turns, the draws and the reply are kept is the model's choice, logs
11, 4 and 12. -/
def Obligations.ResetSignalSetsEveryRegister : Prop :=
  ∀ (s : State) (r : Nat), s.refused = false → nextTurn s = .reset r →
    ∃ t, step s = .next t ∧ t.cmd = 0 ∧ statusWord t = 0 ∧ t.cap.toNat = min r 10 ∧ t.count = 0 ∧
      t.note = 0 ∧ (∀ j : Fin 10, t.obs[j] = 0) ∧ (∀ i : Fin 32, t.written[i] = false) ∧
      (∀ k : Fin 12, t.meas[k] = 0) ∧ t.seq = .idle ∧ t.nidx = 0 ∧ t.pfirst = false ∧
      t.timer = .stopped ∧ t.queue = s.queue ∧ t.chanCap = s.chanCap ∧
      t.faulted = s.faulted ∧ t.refused = s.refused ∧
      t.hostHalted = s.hostHalted ∧ t.engineHalted = s.engineHalted ∧
      t.turns = (spendTurn s).turns ∧ t.later = (spendTurn s).later ∧
      t.draws = s.draws ∧ t.drawCount = s.drawCount ∧ t.busReply = s.busReply

/-- R139, R141: while a notification is pending everything the callback may read holds still, and only an ACK ends it. -/
def Obligations.PendingNotificationHoldsStill : Prop :=
  ∀ s t : State, s.Inv → s.seq = .nWait → step s = .next t → (∀ r, nextTurn s ≠ .reset r) →
    t.meas = s.meas ∧ t.obs = s.obs ∧ t.count = s.count ∧ t.cap = s.cap ∧ t.cmd = s.cmd ∧
    t.fbuf = s.fbuf ∧ t.written = s.written ∧ t.pollst = s.pollst ∧ t.retry = s.retry ∧
    t.pfirst = s.pfirst ∧ t.timer = s.timer ∧
    (t.seq = .nWait ∧ t.note = s.note ∧ t.nidx = s.nidx ∧ t.result = s.result ∧ t.busy = s.busy ∨
      ∃ w, nextTurn s = .host w ∧
        (decodeHbt w = .ok .ackDone ∧ t.seq = .nNext ∨ decodeHbt w = .ok .ackError ∧ t.seq = .idle))

/-- R145, R146: the marks of a run. A refusal changes nothing but REFUSED and ends the run; a fault adds its reason, halts
the agent whose turn it was and no other, spends that turn, and changes nothing else. The run's own transition `advance` is
the model's, log 1, and so is the spending of the turn, log 11. -/
def Obligations.RunKeepsItsMarks : Prop :=
  ∀ s : State,
    (s.refused = true → step s = .refused .runRefused ∧ advance s = s) ∧
    (∀ r, step s = .refused r → advance s = { s with refused := true }) ∧
    (∀ f, step s = .fault f →
      ((∃ w, nextTurn s = .host w) ∨ nextTurn s = .engine) ∧
      (∀ g, g ∈ (advance s).faulted ↔ g = f ∨ g ∈ s.faulted) ∧
      (∀ w, nextTurn s = .host w → (advance s).hostHalted = true ∧
        (advance s).engineHalted = s.engineHalted) ∧
      (nextTurn s = .engine → (advance s).engineHalted = true ∧
        (advance s).hostHalted = s.hostHalted) ∧
      advance s = { spendTurn s with
        faulted := (advance s).faulted
        hostHalted := (advance s).hostHalted
        engineHalted := (advance s).engineHalted }) ∧
    (∀ f ∈ s.faulted, f ∈ (advance s).faulted) ∧ (s.faulted.Nodup → (advance s).faulted.Nodup)

/-- R146: an agent that has faulted takes no further step, whether its turn is listed or comes later. That its turn passes
is the model's choice, logs 10 and 11. -/
def Obligations.FaultedAgentTakesNoStep : Prop :=
  ∀ s : State, s.refused = false →
    (∀ w, s.hostHalted = true → nextTurn s = .host w → step s = .next (spendTurn s)) ∧
    (s.engineHalted = true → nextTurn s = .engine → step s = .next (spendTurn s)) ∧
    (s.engineHalted = true → s.turns = [] → s.later = .engine → step s = .next s) ∧
    (∀ w rest, s.hostHalted = true → s.turns = .host w :: rest →
      step s = .next { s with turns := rest }) ∧
    (∀ rest, s.engineHalted = true → s.turns = .engine :: rest →
      step s = .next { s with turns := rest })

/-- R146, R107: the only fault is a byte of FBUF that holds no value, and no acquired decode meets it. -/
def Obligations.FaultsOnlyOnUnwrittenFrameByte : Prop :=
  ∀ (s : State) (i : Fin 32), step s = .fault (.unwrittenFrameByte i) →
    s.written[i] = false ∧
    ((∃ w, nextTurn s = .host w ∧ decodeHbt w = .ok (.rd (regAddr (.fbuf i)))) ∨
      (nextTurn s = .engine ∧ s.seq = .dExec ∧ (s.Inv → s.command = some .decode)))

/-- R95, R106, R143: a command ends with a code of its own row of the table, and a finished poll shows how it ended. -/
def Obligations.CommandEndsWithItsOwnResult : Prop :=
  ∀ s t : State, s.Inv → s.busy = true → step s = .next t → t.busy = false →
    (∀ r, nextTurn s ≠ .reset r) →
    ∃ c, s.command = some c ∧ t.command = some c ∧ t.result ∈ resultsOf c ∧
      (c = .poll → t.result = .ok ∧ t.pollst = .succeeded ∨
        t.result = .timeout ∧ t.pollst = .exhausted ∨
        t.result = .callbackError ∧ t.pollst = .attempting)

/-! ### Whole commands -/

/-- R109 to R116: with no producer steps RESYNC ends, just behind the first marker pair, or with the channel emptied. That
the engine goes on alone after the listed turn is the model's choice of schedule, log 11. -/
def Obligations.ResyncStopsBehindFirstMarker : Prop :=
  ∀ s : State, s.refused = false → s.hostHalted = false → s.engineHalted = false →
    s.busy = false → s.turns = [.host (encode .resync)] → s.later = .engine →
    ∃ k t, k ≤ 2 * s.queue.length + 3 ∧ stepN k s = .next t ∧ t.busy = false ∧ t.seq = .idle ∧
      (∀ rest, afterMarker s.queue = some rest → t.result = .ok ∧ t.queue = rest) ∧
      (afterMarker s.queue = none → t.result = .desynchronized ∧ t.queue = []) ∧
      t.fbuf = s.fbuf ∧ t.meas = s.meas ∧ t.pollst = s.pollst ∧ t.retry = s.retry

/-- R100 to R108: with no producer steps ACQUIRE ends, with the frame, the failure and the bytes left that
`acquisition` gives for the channel's content. That the engine goes on alone after the listed turn is the model's choice of
schedule, log 11. -/
def Obligations.AcquireReadsOneFrame : Prop :=
  ∀ s : State, s.refused = false → s.hostHalted = false → s.engineHalted = false →
    s.busy = false → s.turns = [.host (encode .acquire)] → s.later = .engine →
    ∃ k t, k ≤ 2 * s.queue.length + 8 ∧ stepN k s = .next t ∧ t.busy = false ∧ t.seq = .idle ∧
      t.queue = (acquisition s.queue).2 ∧
      (∀ F, (acquisition s.queue).1 = .ok F → t.fbuf.toList = F ∧
        t.result = frameResult t.fbuf ∧ t.meas = frameMeas t.fbuf) ∧
      (∀ r, (acquisition s.queue).1 = .error r → t.result = r ∧ t.meas = s.meas) ∧
      t.obs = s.obs ∧ t.count = s.count ∧ t.pollst = s.pollst ∧ t.retry = s.retry

/-- R115, R168, D35: a scan that the producer feeds finitely many bytes ends, whatever they are and whenever they come: under
any command it reaches ⟨R_TAKE2⟩ or ⟨R_FLUSH⟩, and RESYNC itself ends. The fairness premise is that the turns listed are the
engine's and the producer's and the engine goes on alone after them (the schedule is the model's, log 11). -/
def Obligations.ScanEndsAfterFiniteFeed : Prop :=
  ∀ s : State, s.refused = false → s.engineHalted = false → s.seq = .rRead →
    (∀ t ∈ s.turns, t = .engine ∨ ∃ b, t = .producer b) → s.later = .engine →
    (∃ k t, k ≤ 3 * s.turns.length + 2 * s.queue.length + 2 ∧ stepN k s = .next t ∧ t.cmd = s.cmd ∧
      t.busy = s.busy ∧ (t.seq = .rTake2 ∧ t.queue.head? = some 0x4D ∨ t.seq = .rFlush ∧ t.queue = [])) ∧
    (s.command = some .resync →
      ∃ k t, k ≤ 3 * s.turns.length + 2 * s.queue.length + 4 ∧ stepN k s = .next t ∧ t.busy = false ∧
        t.seq = .idle ∧ (t.result = .ok ∨ t.result = .desynchronized))

/-- R115, R168: the two runs that need not end. A scan to which the producer appends one more byte other than 0x42 each time,
without end, goes on for ever under every command, and no deadline is drawn; a notification nobody answers keeps the engine
waiting for ever. (The schedules are the model's, log 11.) -/
def Obligations.TwoRunsNeedNotEnd : Prop :=
  (∀ (s : State) (b : Byte), s.refused = false → s.engineHalted = false → s.seq = .rRead →
    s.queue = [] → 0 < s.chanCap → b ≠ 0x42 → s.turns = [] → s.later = .again [.producer b, .engine] →
    ∀ k, ∃ t, stepN k s = .next t ∧ t.seq = .rRead ∧ t.busy = s.busy ∧ t.result = s.result ∧
      t.cmd = s.cmd ∧ t.pollst = s.pollst ∧ t.retry = s.retry ∧ t.drawCount = s.drawCount) ∧
  (∀ s : State, s.refused = false → s.seq = .nWait → s.turns = [] → s.later = .engine →
    ∀ k, stepN k s = .next s)

/-- R97, R99, R154: a poll over a channel that never holds 32 bytes ends in Timeout whatever the deadline does, consumes
nothing and notifies no one. That the engine goes on alone after the listed turn, and how draws are listed, is the model's
choice, logs 11 and 4. -/
def Obligations.PollOnShortChannelTimesOut : Prop :=
  ∀ s : State, s.Inv → s.refused = false → s.hostHalted = false → s.engineHalted = false →
    s.busy = false → s.turns = [.host (encode .poll)] → s.later = .engine → s.queue.length < 32 →
    ∃ k t, k ≤ 8 ∧ stepN k s = .next t ∧ t.busy = false ∧ t.result = .timeout ∧
      t.pollst = .exhausted ∧ t.queue = s.queue ∧ t.meas = s.meas ∧ t.fbuf = s.fbuf ∧
      t.note = 0 ∧ (∀ ds, s.draws = false :: false :: ds → t.retry = 0)

/-- R137 to R142: NOTIFY delivers the registered handles one at a time in slot order, each once its predecessor is
acknowledged, and ends OK after exactly COUNT of them. -/
def Obligations.NotifyDeliversSlotsInOrder : Prop :=
  ∀ s : State, s.Inv → s.refused = false → s.hostHalted = false → s.engineHalted = false →
    s.busy = false →
    s.turns = .host (encode .notify) ::
      (List.replicate s.count.toNat [Turn.engine, .host (encode .ackDone)]).flatten ++ [.engine] →
    (∀ j : Fin 10, j.val < s.count.toNat → ∃ t, stepN (2 * j.val + 2) s = .next t ∧
      t.seq = .nWait ∧ t.note.toNat = 0x8000 + 0x100 * j.val + s.obs[j].toNat ∧
      t.meas = s.meas) ∧
    ∃ t, stepN (2 * s.count.toNat + 2) s = .next t ∧ t.busy = false ∧ t.seq = .idle ∧
      t.result = .ok ∧ t.note = 0 ∧ t.meas = s.meas ∧ t.turns = []

/-- L1-7 with R91 to R94: a poll over exactly one good frame consumes it, decodes it and ends OK with RETRY = 2 once every
observer has answered. -/
def Obligations.PollOnOneGoodFrameSucceeds : Prop :=
  ∀ (s : State) (F : Vector Byte 32), s.Inv → s.refused = false → s.hostHalted = false →
    s.engineHalted = false → s.busy = false → s.queue = F.toList → frameResult F = .ok →
    s.turns = .host (encode .poll) :: List.replicate 4 .engine ++
      (List.replicate s.count.toNat [Turn.engine, .host (encode .ackDone)]).flatten ++ [.engine] →
    ∃ t, stepN (2 * s.count.toNat + 6) s = .next t ∧ t.busy = false ∧ t.seq = .idle ∧
      t.result = .ok ∧ t.pollst = .succeeded ∧ t.retry = 2 ∧ t.queue = [] ∧ t.note = 0 ∧
      t.fbuf = F ∧ t.meas = frameMeas F

/-- A running POLL or ACQUIRE never faults or is refused on the engine's turn. -/
def Obligations.EngineStepOfAcquisitionIsSafe : Prop :=
  ∀ s : State, s.Inv → s.refused = false → nextTurn s = .engine → s.command ≠ some .decode →
    s.SafeStep
end

