-- ==== Sys2Proof/Laws/Decode.lean ====
section
/-! SUPPORT. The fields of the formats undo their assembly, and the register map and the opcode map undo each other. -/

namespace Sys2Proof

/-- a || b as a number: a stands above b (R18). -/
theorem append_toNat {n m : Nat} (x : BitVec n) (y : BitVec m) :
    (x ++ y).toNat = x.toNat * 2 ^ m + y.toNat := by
  rw [BitVec.toNat_append, ← Nat.shiftLeft_add_eq_or_of_lt y.isLt, Nat.shiftLeft_eq]

/-! ### HBT -/

theorem mkHbt_toNat (we : Bool) (a : BusAddr) (d : Word) :
    (mkHbt we a d).toNat = we.toNat * 2 ^ 24 + a.toNat * 2 ^ 16 + d.toNat := by
  have h1 : (mkHbt we a d).toNat = _ := append_toNat (BitVec.ofBool we ++ a) d
  rw [h1, append_toNat, BitVec.toNat_ofBool]
  ring

theorem hbtWe_eq (w : Hbt) : hbtWe w = decide (w.toNat / 2 ^ 24 % 2 = 1) := by
  rw [hbtWe, BitVec.getLsbD, Nat.testBit_eq_decide_div_mod_eq]

theorem hbtAddr_toNat (w : Hbt) : (hbtAddr w).toNat = w.toNat / 2 ^ 16 % 2 ^ 8 := by
  rw [hbtAddr, BitVec.extractLsb'_toNat, Nat.shiftRight_eq_div_pow]

theorem hbtData_toNat (w : Hbt) : (hbtData w).toNat = w.toNat % 2 ^ 16 := by
  rw [hbtData, BitVec.extractLsb'_toNat, Nat.shiftRight_zero]

@[simp] theorem hbtWe_mkHbt (we : Bool) (a : BusAddr) (d : Word) : hbtWe (mkHbt we a d) = we := by
  rw [hbtWe_eq, mkHbt_toNat]
  have ha := a.isLt
  have hd := d.isLt
  cases we <;> simp only [Bool.toNat_false, Bool.toNat_true, decide_eq_true_eq, decide_eq_false_iff_not] <;> omega

@[simp] theorem hbtAddr_mkHbt (we : Bool) (a : BusAddr) (d : Word) : hbtAddr (mkHbt we a d) = a := by
  apply BitVec.eq_of_toNat_eq
  rw [hbtAddr_toNat, mkHbt_toNat]
  have ha := a.isLt
  have hd := d.isLt
  omega

@[simp] theorem hbtData_mkHbt (we : Bool) (a : BusAddr) (d : Word) : hbtData (mkHbt we a d) = d := by
  apply BitVec.eq_of_toNat_eq
  rw [hbtData_toNat, mkHbt_toNat]
  have hd := d.isLt
  omega

/-- A transaction is its three fields (R71). -/
@[simp] theorem mkHbt_fields (w : Hbt) : mkHbt (hbtWe w) (hbtAddr w) (hbtData w) = w := by
  apply BitVec.eq_of_toNat_eq
  have hw := w.isLt
  rw [mkHbt_toNat, hbtAddr_toNat, hbtData_toNat, hbtWe_eq]
  by_cases h : w.toNat / 2 ^ 24 % 2 = 1
  · simp only [h, decide_true, Bool.toNat_true]; omega
  · simp only [h, decide_false, Bool.toNat_false]; omega

/-! ### CMD -/

theorem mkCmd_toNat (h : Byte) (op : BitVec 4) : (mkCmd h op).toNat = h.toNat * 256 + op.toNat := by
  have h1 : (mkCmd h op).toNat = _ := append_toNat (h ++ 0#4) op
  rw [h1, append_toNat, show (0#4).toNat = 0 from rfl]
  ring

theorem cmdOp_toNat (d : Word) : (cmdOp d).toNat = d.toNat % 16 := by
  rw [cmdOp, BitVec.extractLsb'_toNat, Nat.shiftRight_zero]

theorem cmdRsv_toNat (d : Word) : (cmdRsv d).toNat = d.toNat / 16 % 16 := by
  rw [cmdRsv, BitVec.extractLsb'_toNat, Nat.shiftRight_eq_div_pow]

theorem cmdArg_toNat (d : Word) : (cmdArg d).toNat = d.toNat / 256 := by
  rw [cmdArg, BitVec.extractLsb'_toNat, Nat.shiftRight_eq_div_pow]
  have hd := d.isLt
  omega

@[simp] theorem cmdOp_mkCmd (h : Byte) (op : BitVec 4) : cmdOp (mkCmd h op) = op := by
  apply BitVec.eq_of_toNat_eq
  rw [cmdOp_toNat, mkCmd_toNat]
  have := op.isLt
  omega

@[simp] theorem cmdRsv_mkCmd (h : Byte) (op : BitVec 4) : cmdRsv (mkCmd h op) = 0#4 := by
  apply BitVec.eq_of_toNat_eq
  rw [cmdRsv_toNat, mkCmd_toNat]
  have := op.isLt
  have h0 : (0#4).toNat = 0 := rfl
  omega

@[simp] theorem cmdArg_mkCmd (h : Byte) (op : BitVec 4) : cmdArg (mkCmd h op) = h := by
  apply BitVec.eq_of_toNat_eq
  rw [cmdArg_toNat, mkCmd_toNat]
  have := op.isLt
  omega

/-- A CMD word whose reserved field is 0 is its two other fields (R72). -/
theorem mkCmd_fields (d : Word) (h : cmdRsv d = 0#4) : mkCmd (cmdArg d) (cmdOp d) = d := by
  apply BitVec.eq_of_toNat_eq
  have h' := congrArg BitVec.toNat h
  rw [cmdRsv_toNat] at h'
  have h0 : (0#4).toNat = 0 := rfl
  rw [mkCmd_toNat, cmdArg_toNat, cmdOp_toNat]
  omega

/-! ### The opcode map and the register map -/

@[simp] theorem commandOf_commandOp (c : Command) : commandOf (commandOp c) = some c := by
  cases c <;> decide

/-- The opcode map read backwards (R75). -/
theorem commandOf_eq_some {op : BitVec 4} {c : Command} : commandOf op = some c ↔ op = commandOp c := by
  revert op; cases c <;> decide

/-- When a CMD word is a command: a legal OP, RSV = 0, and ARG = 0 unless it is REGISTER (R72, R75, R77). -/
theorem checkCmd_eq_ok {d : Word} {c : Command} :
    checkCmd d = .ok c ↔
      cmdOp d = commandOp c ∧ cmdRsv d = 0#4 ∧ (c = .register ∨ cmdArg d = 0#8) := by
  unfold checkCmd
  rcases h : commandOf (cmdOp d) with _ | c'
  · simp only [reduceCtorEq, false_iff]
    rintro ⟨h1, -, -⟩
    rw [commandOf_eq_some.2 h1] at h; cases h
  · have hop := commandOf_eq_some.1 h
    have same : cmdOp d = commandOp c → c = c' := fun h3 => by
      have := commandOf_eq_some.2 h3; rw [h] at this; exact (Option.some.inj this).symm
    dsimp only
    split
    · rename_i h1
      simp only [reduceCtorEq, false_iff]
      exact fun h3 => h1 h3.2.1
    · rename_i h1
      split
      · rename_i h2
        simp only [reduceCtorEq, false_iff]
        rintro ⟨h3, -, h4⟩
        cases same h3
        rcases h4 with h4 | h4
        · exact h2.1 h4
        · exact h2.2 h4
      · rename_i h2
        constructor
        · intro hc
          cases hc
          refine ⟨hop, Decidable.not_not.1 h1, ?_⟩
          by_contra hn
          exact h2 ⟨fun e => hn (.inl e), fun e => hn (.inr e)⟩
        · rintro ⟨h3, -, -⟩
          rw [same h3]

namespace Machine

@[simp] theorem regAt_00 : regAt 0#8 = some .cmd := by decide
@[simp] theorem regAt_01 : regAt 1#8 = some .status := by decide
@[simp] theorem regAt_02 : regAt 2#8 = some .config := by decide
@[simp] theorem regAt_03 : regAt 3#8 = some .note := by decide
@[simp] theorem regAt_04 : regAt 4#8 = some .ack := by decide

/-- Where a register stands, the map finds it (R47). -/
@[simp] theorem regAt_regAddr (r : Reg) : regAt (regAddr r) = some r := by
  cases r with
  | cmd => decide
  | status => decide
  | config => decide
  | note => decide
  | ack => decide
  | obs j => revert j; decide
  | fbuf i => revert i; decide
  | meas k => revert k; decide

/-- The register the map finds stands there (R47). -/
theorem regAddr_of_regAt : ∀ {a : BusAddr} {r : Reg}, regAt a = some r → regAddr r = a := by
  have h : ∀ a : BusAddr, ∀ r ∈ regAt a, regAddr r = a := by decide
  intro a r hr
  exact h a r (Option.mem_def.2 hr)

/-- Which register stands at an address, read off either way (R47). -/
theorem regAt_eq_some {a : BusAddr} {r : Reg} : regAt a = some r ↔ a = regAddr r :=
  ⟨fun h => (regAddr_of_regAt h).symm, fun h => h ▸ regAt_regAddr r⟩

end Machine

end Sys2Proof
end

