-- ==== Sys2Proof/Laws/State.lean ====
section
/-! SUPPORT. One lemma per field per named update of the state, so that no proof unfolds a record update. -/

namespace Sys2Proof.Machine

/-! ### finish -/

@[simp] theorem finish_cmd (r : ResultCode) (s : State) : (finish r s).cmd = s.cmd := rfl
@[simp] theorem finish_result (r : ResultCode) (s : State) : (finish r s).result = r := rfl
@[simp] theorem finish_busy (r : ResultCode) (s : State) : (finish r s).busy = false := rfl
@[simp] theorem finish_pollst (r : ResultCode) (s : State) : (finish r s).pollst = s.pollst := rfl
@[simp] theorem finish_retry (r : ResultCode) (s : State) : (finish r s).retry = s.retry := rfl
@[simp] theorem finish_cap (r : ResultCode) (s : State) : (finish r s).cap = s.cap := rfl
@[simp] theorem finish_count (r : ResultCode) (s : State) : (finish r s).count = s.count := rfl
@[simp] theorem finish_note (r : ResultCode) (s : State) : (finish r s).note = s.note := rfl
@[simp] theorem finish_obs (r : ResultCode) (s : State) : (finish r s).obs = s.obs := rfl
@[simp] theorem finish_fbuf (r : ResultCode) (s : State) : (finish r s).fbuf = s.fbuf := rfl
@[simp] theorem finish_written (r : ResultCode) (s : State) : (finish r s).written = s.written := rfl
@[simp] theorem finish_meas (r : ResultCode) (s : State) : (finish r s).meas = s.meas := rfl
@[simp] theorem finish_seq (r : ResultCode) (s : State) : (finish r s).seq = .idle := rfl
@[simp] theorem finish_nidx (r : ResultCode) (s : State) : (finish r s).nidx = s.nidx := rfl
@[simp] theorem finish_pfirst (r : ResultCode) (s : State) : (finish r s).pfirst = s.pfirst := rfl
@[simp] theorem finish_timer (r : ResultCode) (s : State) : (finish r s).timer = s.timer := rfl
@[simp] theorem finish_faulted (r : ResultCode) (s : State) : (finish r s).faulted = s.faulted := rfl
@[simp] theorem finish_refused (r : ResultCode) (s : State) : (finish r s).refused = s.refused := rfl
@[simp] theorem finish_hostHalted (r : ResultCode) (s : State) : (finish r s).hostHalted = s.hostHalted := rfl
@[simp] theorem finish_engineHalted (r : ResultCode) (s : State) : (finish r s).engineHalted = s.engineHalted := rfl
@[simp] theorem finish_queue (r : ResultCode) (s : State) : (finish r s).queue = s.queue := rfl
@[simp] theorem finish_chanCap (r : ResultCode) (s : State) : (finish r s).chanCap = s.chanCap := rfl
@[simp] theorem finish_turns (r : ResultCode) (s : State) : (finish r s).turns = s.turns := rfl
@[simp] theorem finish_later (r : ResultCode) (s : State) : (finish r s).later = s.later := rfl
@[simp] theorem finish_draws (r : ResultCode) (s : State) : (finish r s).draws = s.draws := rfl
@[simp] theorem finish_drawCount (r : ResultCode) (s : State) : (finish r s).drawCount = s.drawCount := rfl
@[simp] theorem finish_busReply (r : ResultCode) (s : State) : (finish r s).busReply = s.busReply := rfl

/-! ### setFrameByte -/

@[simp] theorem setFrameByte_cmd (i : Nat) (b : Byte) (s : State) : (setFrameByte i b s).cmd = s.cmd := rfl
@[simp] theorem setFrameByte_result (i : Nat) (b : Byte) (s : State) : (setFrameByte i b s).result = s.result := rfl
@[simp] theorem setFrameByte_busy (i : Nat) (b : Byte) (s : State) : (setFrameByte i b s).busy = s.busy := rfl
@[simp] theorem setFrameByte_pollst (i : Nat) (b : Byte) (s : State) : (setFrameByte i b s).pollst = s.pollst := rfl
@[simp] theorem setFrameByte_retry (i : Nat) (b : Byte) (s : State) : (setFrameByte i b s).retry = s.retry := rfl
@[simp] theorem setFrameByte_cap (i : Nat) (b : Byte) (s : State) : (setFrameByte i b s).cap = s.cap := rfl
@[simp] theorem setFrameByte_count (i : Nat) (b : Byte) (s : State) : (setFrameByte i b s).count = s.count := rfl
@[simp] theorem setFrameByte_note (i : Nat) (b : Byte) (s : State) : (setFrameByte i b s).note = s.note := rfl
@[simp] theorem setFrameByte_obs (i : Nat) (b : Byte) (s : State) : (setFrameByte i b s).obs = s.obs := rfl
@[simp] theorem setFrameByte_fbuf (i : Nat) (b : Byte) (s : State) : (setFrameByte i b s).fbuf = s.fbuf.setIfInBounds i b := rfl
@[simp] theorem setFrameByte_written (i : Nat) (b : Byte) (s : State) : (setFrameByte i b s).written = s.written.setIfInBounds i true := rfl
@[simp] theorem setFrameByte_meas (i : Nat) (b : Byte) (s : State) : (setFrameByte i b s).meas = s.meas := rfl
@[simp] theorem setFrameByte_seq (i : Nat) (b : Byte) (s : State) : (setFrameByte i b s).seq = s.seq := rfl
@[simp] theorem setFrameByte_nidx (i : Nat) (b : Byte) (s : State) : (setFrameByte i b s).nidx = s.nidx := rfl
@[simp] theorem setFrameByte_pfirst (i : Nat) (b : Byte) (s : State) : (setFrameByte i b s).pfirst = s.pfirst := rfl
@[simp] theorem setFrameByte_timer (i : Nat) (b : Byte) (s : State) : (setFrameByte i b s).timer = s.timer := rfl
@[simp] theorem setFrameByte_faulted (i : Nat) (b : Byte) (s : State) : (setFrameByte i b s).faulted = s.faulted := rfl
@[simp] theorem setFrameByte_refused (i : Nat) (b : Byte) (s : State) : (setFrameByte i b s).refused = s.refused := rfl
@[simp] theorem setFrameByte_hostHalted (i : Nat) (b : Byte) (s : State) : (setFrameByte i b s).hostHalted = s.hostHalted := rfl
@[simp] theorem setFrameByte_engineHalted (i : Nat) (b : Byte) (s : State) : (setFrameByte i b s).engineHalted = s.engineHalted := rfl
@[simp] theorem setFrameByte_queue (i : Nat) (b : Byte) (s : State) : (setFrameByte i b s).queue = s.queue := rfl
@[simp] theorem setFrameByte_chanCap (i : Nat) (b : Byte) (s : State) : (setFrameByte i b s).chanCap = s.chanCap := rfl
@[simp] theorem setFrameByte_turns (i : Nat) (b : Byte) (s : State) : (setFrameByte i b s).turns = s.turns := rfl
@[simp] theorem setFrameByte_later (i : Nat) (b : Byte) (s : State) : (setFrameByte i b s).later = s.later := rfl
@[simp] theorem setFrameByte_draws (i : Nat) (b : Byte) (s : State) : (setFrameByte i b s).draws = s.draws := rfl
@[simp] theorem setFrameByte_drawCount (i : Nat) (b : Byte) (s : State) : (setFrameByte i b s).drawCount = s.drawCount := rfl
@[simp] theorem setFrameByte_busReply (i : Nat) (b : Byte) (s : State) : (setFrameByte i b s).busReply = s.busReply := rfl

/-! ### chReadRest -/

@[simp] theorem chReadRest_cmd (s : State) : (chReadRest s).cmd = s.cmd := rfl
@[simp] theorem chReadRest_result (s : State) : (chReadRest s).result = s.result := rfl
@[simp] theorem chReadRest_busy (s : State) : (chReadRest s).busy = s.busy := rfl
@[simp] theorem chReadRest_pollst (s : State) : (chReadRest s).pollst = s.pollst := rfl
@[simp] theorem chReadRest_retry (s : State) : (chReadRest s).retry = s.retry := rfl
@[simp] theorem chReadRest_cap (s : State) : (chReadRest s).cap = s.cap := rfl
@[simp] theorem chReadRest_count (s : State) : (chReadRest s).count = s.count := rfl
@[simp] theorem chReadRest_note (s : State) : (chReadRest s).note = s.note := rfl
@[simp] theorem chReadRest_obs (s : State) : (chReadRest s).obs = s.obs := rfl
@[simp] theorem chReadRest_fbuf (s : State) : (chReadRest s).fbuf = s.fbuf := rfl
@[simp] theorem chReadRest_written (s : State) : (chReadRest s).written = s.written := rfl
@[simp] theorem chReadRest_meas (s : State) : (chReadRest s).meas = s.meas := rfl
@[simp] theorem chReadRest_seq (s : State) : (chReadRest s).seq = s.seq := rfl
@[simp] theorem chReadRest_nidx (s : State) : (chReadRest s).nidx = s.nidx := rfl
@[simp] theorem chReadRest_pfirst (s : State) : (chReadRest s).pfirst = s.pfirst := rfl
@[simp] theorem chReadRest_timer (s : State) : (chReadRest s).timer = s.timer := rfl
@[simp] theorem chReadRest_faulted (s : State) : (chReadRest s).faulted = s.faulted := rfl
@[simp] theorem chReadRest_refused (s : State) : (chReadRest s).refused = s.refused := rfl
@[simp] theorem chReadRest_hostHalted (s : State) : (chReadRest s).hostHalted = s.hostHalted := rfl
@[simp] theorem chReadRest_engineHalted (s : State) : (chReadRest s).engineHalted = s.engineHalted := rfl
@[simp] theorem chReadRest_queue (s : State) : (chReadRest s).queue = s.queue.tail := rfl
@[simp] theorem chReadRest_chanCap (s : State) : (chReadRest s).chanCap = s.chanCap := rfl
@[simp] theorem chReadRest_turns (s : State) : (chReadRest s).turns = s.turns := rfl
@[simp] theorem chReadRest_later (s : State) : (chReadRest s).later = s.later := rfl
@[simp] theorem chReadRest_draws (s : State) : (chReadRest s).draws = s.draws := rfl
@[simp] theorem chReadRest_drawCount (s : State) : (chReadRest s).drawCount = s.drawCount := rfl
@[simp] theorem chReadRest_busReply (s : State) : (chReadRest s).busReply = s.busReply := rfl

/-! ### chReadBytesRest -/

@[simp] theorem chReadBytesRest_cmd (n : Nat) (s : State) : (chReadBytesRest n s).cmd = s.cmd := rfl
@[simp] theorem chReadBytesRest_result (n : Nat) (s : State) : (chReadBytesRest n s).result = s.result := rfl
@[simp] theorem chReadBytesRest_busy (n : Nat) (s : State) : (chReadBytesRest n s).busy = s.busy := rfl
@[simp] theorem chReadBytesRest_pollst (n : Nat) (s : State) : (chReadBytesRest n s).pollst = s.pollst := rfl
@[simp] theorem chReadBytesRest_retry (n : Nat) (s : State) : (chReadBytesRest n s).retry = s.retry := rfl
@[simp] theorem chReadBytesRest_cap (n : Nat) (s : State) : (chReadBytesRest n s).cap = s.cap := rfl
@[simp] theorem chReadBytesRest_count (n : Nat) (s : State) : (chReadBytesRest n s).count = s.count := rfl
@[simp] theorem chReadBytesRest_note (n : Nat) (s : State) : (chReadBytesRest n s).note = s.note := rfl
@[simp] theorem chReadBytesRest_obs (n : Nat) (s : State) : (chReadBytesRest n s).obs = s.obs := rfl
@[simp] theorem chReadBytesRest_fbuf (n : Nat) (s : State) : (chReadBytesRest n s).fbuf = s.fbuf := rfl
@[simp] theorem chReadBytesRest_written (n : Nat) (s : State) : (chReadBytesRest n s).written = s.written := rfl
@[simp] theorem chReadBytesRest_meas (n : Nat) (s : State) : (chReadBytesRest n s).meas = s.meas := rfl
@[simp] theorem chReadBytesRest_seq (n : Nat) (s : State) : (chReadBytesRest n s).seq = s.seq := rfl
@[simp] theorem chReadBytesRest_nidx (n : Nat) (s : State) : (chReadBytesRest n s).nidx = s.nidx := rfl
@[simp] theorem chReadBytesRest_pfirst (n : Nat) (s : State) : (chReadBytesRest n s).pfirst = s.pfirst := rfl
@[simp] theorem chReadBytesRest_timer (n : Nat) (s : State) : (chReadBytesRest n s).timer = s.timer := rfl
@[simp] theorem chReadBytesRest_faulted (n : Nat) (s : State) : (chReadBytesRest n s).faulted = s.faulted := rfl
@[simp] theorem chReadBytesRest_refused (n : Nat) (s : State) : (chReadBytesRest n s).refused = s.refused := rfl
@[simp] theorem chReadBytesRest_hostHalted (n : Nat) (s : State) : (chReadBytesRest n s).hostHalted = s.hostHalted := rfl
@[simp] theorem chReadBytesRest_engineHalted (n : Nat) (s : State) : (chReadBytesRest n s).engineHalted = s.engineHalted := rfl
@[simp] theorem chReadBytesRest_queue (n : Nat) (s : State) : (chReadBytesRest n s).queue = s.queue.drop n := rfl
@[simp] theorem chReadBytesRest_chanCap (n : Nat) (s : State) : (chReadBytesRest n s).chanCap = s.chanCap := rfl
@[simp] theorem chReadBytesRest_turns (n : Nat) (s : State) : (chReadBytesRest n s).turns = s.turns := rfl
@[simp] theorem chReadBytesRest_later (n : Nat) (s : State) : (chReadBytesRest n s).later = s.later := rfl
@[simp] theorem chReadBytesRest_draws (n : Nat) (s : State) : (chReadBytesRest n s).draws = s.draws := rfl
@[simp] theorem chReadBytesRest_drawCount (n : Nat) (s : State) : (chReadBytesRest n s).drawCount = s.drawCount := rfl
@[simp] theorem chReadBytesRest_busReply (n : Nat) (s : State) : (chReadBytesRest n s).busReply = s.busReply := rfl

/-! ### chFlush -/

@[simp] theorem chFlush_cmd (s : State) : (chFlush s).cmd = s.cmd := rfl
@[simp] theorem chFlush_result (s : State) : (chFlush s).result = s.result := rfl
@[simp] theorem chFlush_busy (s : State) : (chFlush s).busy = s.busy := rfl
@[simp] theorem chFlush_pollst (s : State) : (chFlush s).pollst = s.pollst := rfl
@[simp] theorem chFlush_retry (s : State) : (chFlush s).retry = s.retry := rfl
@[simp] theorem chFlush_cap (s : State) : (chFlush s).cap = s.cap := rfl
@[simp] theorem chFlush_count (s : State) : (chFlush s).count = s.count := rfl
@[simp] theorem chFlush_note (s : State) : (chFlush s).note = s.note := rfl
@[simp] theorem chFlush_obs (s : State) : (chFlush s).obs = s.obs := rfl
@[simp] theorem chFlush_fbuf (s : State) : (chFlush s).fbuf = s.fbuf := rfl
@[simp] theorem chFlush_written (s : State) : (chFlush s).written = s.written := rfl
@[simp] theorem chFlush_meas (s : State) : (chFlush s).meas = s.meas := rfl
@[simp] theorem chFlush_seq (s : State) : (chFlush s).seq = s.seq := rfl
@[simp] theorem chFlush_nidx (s : State) : (chFlush s).nidx = s.nidx := rfl
@[simp] theorem chFlush_pfirst (s : State) : (chFlush s).pfirst = s.pfirst := rfl
@[simp] theorem chFlush_timer (s : State) : (chFlush s).timer = s.timer := rfl
@[simp] theorem chFlush_faulted (s : State) : (chFlush s).faulted = s.faulted := rfl
@[simp] theorem chFlush_refused (s : State) : (chFlush s).refused = s.refused := rfl
@[simp] theorem chFlush_hostHalted (s : State) : (chFlush s).hostHalted = s.hostHalted := rfl
@[simp] theorem chFlush_engineHalted (s : State) : (chFlush s).engineHalted = s.engineHalted := rfl
@[simp] theorem chFlush_queue (s : State) : (chFlush s).queue = [] := rfl
@[simp] theorem chFlush_chanCap (s : State) : (chFlush s).chanCap = s.chanCap := rfl
@[simp] theorem chFlush_turns (s : State) : (chFlush s).turns = s.turns := rfl
@[simp] theorem chFlush_later (s : State) : (chFlush s).later = s.later := rfl
@[simp] theorem chFlush_draws (s : State) : (chFlush s).draws = s.draws := rfl
@[simp] theorem chFlush_drawCount (s : State) : (chFlush s).drawCount = s.drawCount := rfl
@[simp] theorem chFlush_busReply (s : State) : (chFlush s).busReply = s.busReply := rfl

/-! ### drawTaken -/

@[simp] theorem drawTaken_cmd (s : State) : (drawTaken s).cmd = s.cmd := rfl
@[simp] theorem drawTaken_result (s : State) : (drawTaken s).result = s.result := rfl
@[simp] theorem drawTaken_busy (s : State) : (drawTaken s).busy = s.busy := rfl
@[simp] theorem drawTaken_pollst (s : State) : (drawTaken s).pollst = s.pollst := rfl
@[simp] theorem drawTaken_retry (s : State) : (drawTaken s).retry = s.retry := rfl
@[simp] theorem drawTaken_cap (s : State) : (drawTaken s).cap = s.cap := rfl
@[simp] theorem drawTaken_count (s : State) : (drawTaken s).count = s.count := rfl
@[simp] theorem drawTaken_note (s : State) : (drawTaken s).note = s.note := rfl
@[simp] theorem drawTaken_obs (s : State) : (drawTaken s).obs = s.obs := rfl
@[simp] theorem drawTaken_fbuf (s : State) : (drawTaken s).fbuf = s.fbuf := rfl
@[simp] theorem drawTaken_written (s : State) : (drawTaken s).written = s.written := rfl
@[simp] theorem drawTaken_meas (s : State) : (drawTaken s).meas = s.meas := rfl
@[simp] theorem drawTaken_seq (s : State) : (drawTaken s).seq = s.seq := rfl
@[simp] theorem drawTaken_nidx (s : State) : (drawTaken s).nidx = s.nidx := rfl
@[simp] theorem drawTaken_pfirst (s : State) : (drawTaken s).pfirst = s.pfirst := rfl
@[simp] theorem drawTaken_timer (s : State) : (drawTaken s).timer = s.timer := rfl
@[simp] theorem drawTaken_faulted (s : State) : (drawTaken s).faulted = s.faulted := rfl
@[simp] theorem drawTaken_refused (s : State) : (drawTaken s).refused = s.refused := rfl
@[simp] theorem drawTaken_hostHalted (s : State) : (drawTaken s).hostHalted = s.hostHalted := rfl
@[simp] theorem drawTaken_engineHalted (s : State) : (drawTaken s).engineHalted = s.engineHalted := rfl
@[simp] theorem drawTaken_queue (s : State) : (drawTaken s).queue = s.queue := rfl
@[simp] theorem drawTaken_chanCap (s : State) : (drawTaken s).chanCap = s.chanCap := rfl
@[simp] theorem drawTaken_turns (s : State) : (drawTaken s).turns = s.turns := rfl
@[simp] theorem drawTaken_later (s : State) : (drawTaken s).later = s.later := rfl
@[simp] theorem drawTaken_draws (s : State) : (drawTaken s).draws = s.draws.tail := rfl
@[simp] theorem drawTaken_drawCount (s : State) : (drawTaken s).drawCount = s.drawCount + 1 := rfl
@[simp] theorem drawTaken_busReply (s : State) : (drawTaken s).busReply = s.busReply := rfl

/-! ### resetSignal -/

@[simp] theorem resetSignal_cmd (n : Nat) (s : State) : (resetSignal n s).cmd = 0 := rfl
@[simp] theorem resetSignal_result (n : Nat) (s : State) : (resetSignal n s).result = .none := rfl
@[simp] theorem resetSignal_busy (n : Nat) (s : State) : (resetSignal n s).busy = false := rfl
@[simp] theorem resetSignal_pollst (n : Nat) (s : State) : (resetSignal n s).pollst = .idle := rfl
@[simp] theorem resetSignal_retry (n : Nat) (s : State) : (resetSignal n s).retry = 0 := rfl
@[simp] theorem resetSignal_cap (n : Nat) (s : State) : (resetSignal n s).cap = Config.capOf n := rfl
@[simp] theorem resetSignal_count (n : Nat) (s : State) : (resetSignal n s).count = 0 := rfl
@[simp] theorem resetSignal_note (n : Nat) (s : State) : (resetSignal n s).note = 0 := rfl
@[simp] theorem resetSignal_obs (n : Nat) (s : State) : (resetSignal n s).obs = Vector.replicate 10 0 := rfl
@[simp] theorem resetSignal_fbuf (n : Nat) (s : State) : (resetSignal n s).fbuf = Vector.replicate 32 0 := rfl
@[simp] theorem resetSignal_written (n : Nat) (s : State) : (resetSignal n s).written = Vector.replicate 32 false := rfl
@[simp] theorem resetSignal_meas (n : Nat) (s : State) : (resetSignal n s).meas = Vector.replicate 12 0 := rfl
@[simp] theorem resetSignal_seq (n : Nat) (s : State) : (resetSignal n s).seq = .idle := rfl
@[simp] theorem resetSignal_nidx (n : Nat) (s : State) : (resetSignal n s).nidx = 0 := rfl
@[simp] theorem resetSignal_pfirst (n : Nat) (s : State) : (resetSignal n s).pfirst = false := rfl
@[simp] theorem resetSignal_timer (n : Nat) (s : State) : (resetSignal n s).timer = .stopped := rfl
@[simp] theorem resetSignal_faulted (n : Nat) (s : State) : (resetSignal n s).faulted = s.faulted := rfl
@[simp] theorem resetSignal_refused (n : Nat) (s : State) : (resetSignal n s).refused = s.refused := rfl
@[simp] theorem resetSignal_hostHalted (n : Nat) (s : State) : (resetSignal n s).hostHalted = s.hostHalted := rfl
@[simp] theorem resetSignal_engineHalted (n : Nat) (s : State) : (resetSignal n s).engineHalted = s.engineHalted := rfl
@[simp] theorem resetSignal_queue (n : Nat) (s : State) : (resetSignal n s).queue = s.queue := rfl
@[simp] theorem resetSignal_chanCap (n : Nat) (s : State) : (resetSignal n s).chanCap = s.chanCap := rfl
@[simp] theorem resetSignal_turns (n : Nat) (s : State) : (resetSignal n s).turns = s.turns := rfl
@[simp] theorem resetSignal_later (n : Nat) (s : State) : (resetSignal n s).later = s.later := rfl
@[simp] theorem resetSignal_draws (n : Nat) (s : State) : (resetSignal n s).draws = s.draws := rfl
@[simp] theorem resetSignal_drawCount (n : Nat) (s : State) : (resetSignal n s).drawCount = s.drawCount := rfl
@[simp] theorem resetSignal_busReply (n : Nat) (s : State) : (resetSignal n s).busReply = s.busReply := rfl

/-! ### spendTurn -/

/-- Spending a turn touches the turns to come and nothing else. -/
theorem spendTurn_eq (s : State) :
    spendTurn s = { s with turns := (spendTurn s).turns, later := (spendTurn s).later } := by
  unfold spendTurn; split
  · rfl
  · split <;> rfl

@[simp] theorem spendTurn_cmd (s : State) : (spendTurn s).cmd = s.cmd := by rw [spendTurn_eq]
@[simp] theorem spendTurn_result (s : State) : (spendTurn s).result = s.result := by rw [spendTurn_eq]
@[simp] theorem spendTurn_busy (s : State) : (spendTurn s).busy = s.busy := by rw [spendTurn_eq]
@[simp] theorem spendTurn_pollst (s : State) : (spendTurn s).pollst = s.pollst := by rw [spendTurn_eq]
@[simp] theorem spendTurn_retry (s : State) : (spendTurn s).retry = s.retry := by rw [spendTurn_eq]
@[simp] theorem spendTurn_cap (s : State) : (spendTurn s).cap = s.cap := by rw [spendTurn_eq]
@[simp] theorem spendTurn_count (s : State) : (spendTurn s).count = s.count := by rw [spendTurn_eq]
@[simp] theorem spendTurn_note (s : State) : (spendTurn s).note = s.note := by rw [spendTurn_eq]
@[simp] theorem spendTurn_obs (s : State) : (spendTurn s).obs = s.obs := by rw [spendTurn_eq]
@[simp] theorem spendTurn_fbuf (s : State) : (spendTurn s).fbuf = s.fbuf := by rw [spendTurn_eq]
@[simp] theorem spendTurn_written (s : State) : (spendTurn s).written = s.written := by rw [spendTurn_eq]
@[simp] theorem spendTurn_meas (s : State) : (spendTurn s).meas = s.meas := by rw [spendTurn_eq]
@[simp] theorem spendTurn_seq (s : State) : (spendTurn s).seq = s.seq := by rw [spendTurn_eq]
@[simp] theorem spendTurn_nidx (s : State) : (spendTurn s).nidx = s.nidx := by rw [spendTurn_eq]
@[simp] theorem spendTurn_pfirst (s : State) : (spendTurn s).pfirst = s.pfirst := by rw [spendTurn_eq]
@[simp] theorem spendTurn_timer (s : State) : (spendTurn s).timer = s.timer := by rw [spendTurn_eq]
@[simp] theorem spendTurn_faulted (s : State) : (spendTurn s).faulted = s.faulted := by rw [spendTurn_eq]
@[simp] theorem spendTurn_refused (s : State) : (spendTurn s).refused = s.refused := by rw [spendTurn_eq]
@[simp] theorem spendTurn_hostHalted (s : State) : (spendTurn s).hostHalted = s.hostHalted := by rw [spendTurn_eq]
@[simp] theorem spendTurn_engineHalted (s : State) : (spendTurn s).engineHalted = s.engineHalted := by rw [spendTurn_eq]
@[simp] theorem spendTurn_queue (s : State) : (spendTurn s).queue = s.queue := by rw [spendTurn_eq]
@[simp] theorem spendTurn_chanCap (s : State) : (spendTurn s).chanCap = s.chanCap := by rw [spendTurn_eq]
@[simp] theorem spendTurn_draws (s : State) : (spendTurn s).draws = s.draws := by rw [spendTurn_eq]
@[simp] theorem spendTurn_drawCount (s : State) : (spendTurn s).drawCount = s.drawCount := by rw [spendTurn_eq]
@[simp] theorem spendTurn_busReply (s : State) : (spendTurn s).busReply = s.busReply := by rw [spendTurn_eq]
@[simp] theorem spendTurn_command (s : State) : (spendTurn s).command = s.command := by rw [spendTurn_eq]; rfl

/-- A listed turn is the next one, and spending it takes it off the list (R22). -/
theorem turn_of_listed {s : State} {t : Turn} {ts : List Turn} (h : s.turns = t :: ts) :
    nextTurn s = t ∧ spendTurn s = { s with turns := ts } := by
  simp only [nextTurn, spendTurn, h, and_self]

/-- When no turn is listed and the engine alone goes on, the engine has the turn and nothing is spent (R22). -/
theorem turn_of_engine_later {s : State} (h : s.turns = []) (hl : s.later = .engine) :
    nextTurn s = .engine ∧ spendTurn s = s := by
  simp only [nextTurn, spendTurn, h, hl, and_self]

/-- When no turn is listed, turns that come again and again are listed anew, the first one taken off (R22). -/
theorem turn_of_again_later {s : State} {t : Turn} {ts : List Turn} (h : s.turns = []) (hl : s.later = .again (t :: ts)) :
    nextTurn s = t ∧ spendTurn s = { s with turns := ts } := by
  simp only [nextTurn, spendTurn, h, hl, List.headD_cons, List.tail_cons, and_self]

/-! ### storeFrameBytes -/

/-- Inside the bounds the guarded update of a register file is the plain one. -/
theorem setIfInBounds_eq_set {α : Type} {n : Nat} (v : Vector α n) (i : Nat) (x : α) (h : i < n) :
    v.setIfInBounds i x = v.set i x h := by
  ext j hj
  rw [Vector.getElem_setIfInBounds, Vector.getElem_set]

/-- The loop over a bulk read touches FBUF and WRITTEN alone. -/
theorem storeFrameBytes_eq (bs : List Byte) (off : Nat) (s : State) :
    storeFrameBytes off bs s =
      { s with
        fbuf := (storeFrameBytes off bs s).fbuf
        written := (storeFrameBytes off bs s).written } := by
  induction bs generalizing off s with
  | nil => rfl
  | cons b bs ih => rw [storeFrameBytes, ih]; rfl

@[simp] theorem storeFrameBytes_cmd (off : Nat) (bs : List Byte) (s : State) :
    (storeFrameBytes off bs s).cmd = s.cmd := by rw [storeFrameBytes_eq]
@[simp] theorem storeFrameBytes_result (off : Nat) (bs : List Byte) (s : State) :
    (storeFrameBytes off bs s).result = s.result := by rw [storeFrameBytes_eq]
@[simp] theorem storeFrameBytes_busy (off : Nat) (bs : List Byte) (s : State) :
    (storeFrameBytes off bs s).busy = s.busy := by rw [storeFrameBytes_eq]
@[simp] theorem storeFrameBytes_pollst (off : Nat) (bs : List Byte) (s : State) :
    (storeFrameBytes off bs s).pollst = s.pollst := by rw [storeFrameBytes_eq]
@[simp] theorem storeFrameBytes_retry (off : Nat) (bs : List Byte) (s : State) :
    (storeFrameBytes off bs s).retry = s.retry := by rw [storeFrameBytes_eq]
@[simp] theorem storeFrameBytes_cap (off : Nat) (bs : List Byte) (s : State) :
    (storeFrameBytes off bs s).cap = s.cap := by rw [storeFrameBytes_eq]
@[simp] theorem storeFrameBytes_count (off : Nat) (bs : List Byte) (s : State) :
    (storeFrameBytes off bs s).count = s.count := by rw [storeFrameBytes_eq]
@[simp] theorem storeFrameBytes_note (off : Nat) (bs : List Byte) (s : State) :
    (storeFrameBytes off bs s).note = s.note := by rw [storeFrameBytes_eq]
@[simp] theorem storeFrameBytes_obs (off : Nat) (bs : List Byte) (s : State) :
    (storeFrameBytes off bs s).obs = s.obs := by rw [storeFrameBytes_eq]
@[simp] theorem storeFrameBytes_meas (off : Nat) (bs : List Byte) (s : State) :
    (storeFrameBytes off bs s).meas = s.meas := by rw [storeFrameBytes_eq]
@[simp] theorem storeFrameBytes_seq (off : Nat) (bs : List Byte) (s : State) :
    (storeFrameBytes off bs s).seq = s.seq := by rw [storeFrameBytes_eq]
@[simp] theorem storeFrameBytes_nidx (off : Nat) (bs : List Byte) (s : State) :
    (storeFrameBytes off bs s).nidx = s.nidx := by rw [storeFrameBytes_eq]
@[simp] theorem storeFrameBytes_pfirst (off : Nat) (bs : List Byte) (s : State) :
    (storeFrameBytes off bs s).pfirst = s.pfirst := by rw [storeFrameBytes_eq]
@[simp] theorem storeFrameBytes_timer (off : Nat) (bs : List Byte) (s : State) :
    (storeFrameBytes off bs s).timer = s.timer := by rw [storeFrameBytes_eq]
@[simp] theorem storeFrameBytes_faulted (off : Nat) (bs : List Byte) (s : State) :
    (storeFrameBytes off bs s).faulted = s.faulted := by rw [storeFrameBytes_eq]
@[simp] theorem storeFrameBytes_refused (off : Nat) (bs : List Byte) (s : State) :
    (storeFrameBytes off bs s).refused = s.refused := by rw [storeFrameBytes_eq]
@[simp] theorem storeFrameBytes_hostHalted (off : Nat) (bs : List Byte) (s : State) :
    (storeFrameBytes off bs s).hostHalted = s.hostHalted := by rw [storeFrameBytes_eq]
@[simp] theorem storeFrameBytes_engineHalted (off : Nat) (bs : List Byte) (s : State) :
    (storeFrameBytes off bs s).engineHalted = s.engineHalted := by rw [storeFrameBytes_eq]
@[simp] theorem storeFrameBytes_queue (off : Nat) (bs : List Byte) (s : State) :
    (storeFrameBytes off bs s).queue = s.queue := by rw [storeFrameBytes_eq]
@[simp] theorem storeFrameBytes_chanCap (off : Nat) (bs : List Byte) (s : State) :
    (storeFrameBytes off bs s).chanCap = s.chanCap := by rw [storeFrameBytes_eq]
@[simp] theorem storeFrameBytes_turns (off : Nat) (bs : List Byte) (s : State) :
    (storeFrameBytes off bs s).turns = s.turns := by rw [storeFrameBytes_eq]
@[simp] theorem storeFrameBytes_later (off : Nat) (bs : List Byte) (s : State) :
    (storeFrameBytes off bs s).later = s.later := by rw [storeFrameBytes_eq]
@[simp] theorem storeFrameBytes_draws (off : Nat) (bs : List Byte) (s : State) :
    (storeFrameBytes off bs s).draws = s.draws := by rw [storeFrameBytes_eq]
@[simp] theorem storeFrameBytes_drawCount (off : Nat) (bs : List Byte) (s : State) :
    (storeFrameBytes off bs s).drawCount = s.drawCount := by rw [storeFrameBytes_eq]
@[simp] theorem storeFrameBytes_busReply (off : Nat) (bs : List Byte) (s : State) :
    (storeFrameBytes off bs s).busReply = s.busReply := by rw [storeFrameBytes_eq]

/-- Which bytes of FBUF the loop writes, and with what (R103, R105). -/
theorem storeFrameBytes_fbuf_getElem (bs : List Byte) (off : Nat) (s : State) (j : Nat) (hj : j < 32) :
    (storeFrameBytes off bs s).fbuf[j] =
      if h : off ≤ j ∧ j < off + bs.length then bs[j - off]'(by omega) else s.fbuf[j] := by
  induction bs generalizing off s with
  | nil => simp [storeFrameBytes]
  | cons b bs ih =>
    rw [storeFrameBytes, ih]
    by_cases h : j = off
    · subst h; simp
    · by_cases h2 : off + 1 ≤ j ∧ j < off + 1 + bs.length
      · have h3 : off ≤ j ∧ j < off + (b :: bs).length := by simp; omega
        have h4 : j - off = (j - (off + 1)) + 1 := by omega
        simp only [h2, h3, and_self, ↓reduceDIte, h4, List.getElem_cons_succ]
      · have h3 : ¬ (off ≤ j ∧ j < off + (b :: bs).length) := by simp; omega
        rw [dif_neg h2, dif_neg h3, setFrameByte_fbuf, Vector.getElem_setIfInBounds]
        simp [show off ≠ j by omega]

/-- Which bytes of FBUF the loop marks as written (R103, R105). -/
theorem storeFrameBytes_written_getElem (bs : List Byte) (off : Nat) (s : State) (j : Nat) (hj : j < 32) :
    (storeFrameBytes off bs s).written[j] =
      if off ≤ j ∧ j < off + bs.length then true else s.written[j] := by
  induction bs generalizing off s with
  | nil => simp [storeFrameBytes]
  | cons b bs ih =>
    rw [storeFrameBytes, ih]
    by_cases h : j = off
    · subst h; simp
    · by_cases h2 : off + 1 ≤ j ∧ j < off + 1 + bs.length
      · have h3 : off ≤ j ∧ j < off + (b :: bs).length := by simp; omega
        rw [if_pos h2, if_pos h3]
      · have h3 : ¬ (off ≤ j ∧ j < off + (b :: bs).length) := by simp; omega
        rw [if_neg h2, if_neg h3, setFrameByte_written, Vector.getElem_setIfInBounds]
        simp [show off ≠ j by omega]

/-! ### The acquirer's writes of FBUF -/

/-- The direct read touches FBUF, WRITTEN, the channel and SEQ alone (R103). -/
theorem stepARead32_eq (s : State) :
    stepARead32 s =
      { s with
        fbuf := (stepARead32 s).fbuf
        written := (stepARead32 s).written
        queue := s.queue.drop 32
        seq := .dExec } := by
  simp only [stepARead32]; rw [storeFrameBytes_eq]; rfl

/-- The post-resync read touches FBUF, WRITTEN, the channel and SEQ alone (R105). -/
theorem stepARead30_eq (s : State) :
    stepARead30 s =
      { s with
        fbuf := (stepARead30 s).fbuf
        written := (stepARead30 s).written
        queue := s.queue.drop 30
        seq := .dExec } := by
  simp only [stepARead30]; rw [storeFrameBytes_eq]; rfl

/-- The marker's two bytes are stored, and nothing else (R104). -/
theorem placeMarker_eq (s : State) :
    placeMarker s =
      { s with
        fbuf := (s.fbuf.set 0 0x42).set 1 0x4D
        written := (s.written.set 0 true).set 1 true } := by
  simp only [placeMarker, setFrameByte, setIfInBounds_eq_set _ 0 _ (by omega : 0 < 32),
    setIfInBounds_eq_set _ 1 _ (by omega : 1 < 32)]
  rfl

end Sys2Proof.Machine
end

