-- ==== Sys2Proof/Laws/Ops.lean ====
section
/-! SUPPORT. What each shared operation can do, said once: the assembled words as numbers, the unwritten-byte search,
acceptance of a command, the acquirer's failure routing, and the fault set. -/

namespace Sys2Proof.Machine

/-! ### Words -/

/-- BE16 as a number (R20). -/
theorem be16_toNat (hi lo : Byte) : (be16 hi lo).toNat = hi.toNat * 256 + lo.toNat := by
  have h1 := hi.isLt
  have h2 := lo.isLt
  have e : (be16 hi lo).toNat = hi.toNat <<< 8 ||| lo.toNat := by
    simp only [be16, BitVec.toNat_or, BitVec.toNat_shiftLeft, BitVec.toNat_setWidth]
    rw [Nat.mod_eq_of_lt (a := hi.toNat) (by omega), Nat.mod_eq_of_lt (a := lo.toNat) (by omega),
      Nat.mod_eq_of_lt]
    rw [Nat.shiftLeft_eq]; omega
  rw [e, ← Nat.shiftLeft_add_eq_or_of_lt h2, Nat.shiftLeft_eq]

/-- The word of a pending notification as a number (R34). -/
theorem noteWord_toNat (slot : BitVec 4) (h : Byte) :
    (noteWord slot h).toNat = 0x8000 + 0x100 * slot.toNat + h.toNat := by
  have e : (noteWord slot h).toNat = _ := append_toNat (1#1 ++ 0#3 ++ slot) h
  rw [e, append_toNat, show (1#1 ++ 0#3).toNat = 8 from rfl]
  ring

/-- A pending notification shows PEND (R34). -/
@[simp] theorem notePend_noteWord (s : State) (slot : BitVec 4) (h : Byte) (hn : s.note = noteWord slot h) :
    notePend s = true := by
  have h1 := noteWord_toNat slot h
  have h2 := slot.isLt
  have h3 := h.isLt
  rw [notePend, hn, BitVec.getLsbD, Nat.testBit_eq_decide_div_mod_eq, h1, decide_eq_true_eq]
  omega

/-- STATUS as a number: RESULT | BUSY << 4 | POLLST << 5 | RETRY << 8 (R28, R99). -/
theorem statusWord_toNat (s : State) :
    (statusWord s).toNat =
      (resultBits s.result).toNat + 16 * s.busy.toNat + 32 * (pollBits s.pollst).toNat +
        256 * s.retry.toNat := by
  have e : (statusWord s).toNat = _ :=
    append_toNat (0#6 ++ s.retry ++ 0#1 ++ pollBits s.pollst ++ BitVec.ofBool s.busy)
      (resultBits s.result)
  rw [e, append_toNat, append_toNat, append_toNat, append_toNat, BitVec.toNat_ofBool,
    show (0#6).toNat = 0 from rfl, show (0#1).toNat = 0 from rfl]
  ring

/-- CONFIG as a number: CAP | COUNT << 4 (R33). -/
theorem configWord_toNat (s : State) : (configWord s).toNat = s.cap.toNat + 16 * s.count.toNat := by
  have e : (configWord s).toNat = _ := append_toNat (0#8 ++ s.count) s.cap
  rw [e, append_toNat, show (0#8).toNat = 0 from rfl]
  ring

/-! ### The frame buffer -/

/-- Nothing is chosen exactly when there is nothing to choose from. -/
theorem chooseUnwritten_eq_none {l : List (Fin 32)} : chooseUnwritten l = none ↔ l = [] := by
  rcases l with _ | ⟨i, _ | ⟨j, l⟩⟩ <;> simp [chooseUnwritten]

/-- What is chosen is one of the list, whatever the free value. -/
theorem mem_of_chooseUnwritten {l : List (Fin 32)} {i : Fin 32} (h : chooseUnwritten l = some i) : i ∈ l := by
  rcases l with _ | ⟨a, _ | ⟨b, l⟩⟩
  · cases h
  · cases h; exact List.mem_singleton_self _
  · have e : (a :: b :: l).getD (Config.freeUnwritten (a :: b :: l)) a = i := Option.some.inj h
    rw [← e, List.getD_eq_getElem?_getD]
    rcases hg : (a :: b :: l)[Config.freeUnwritten (a :: b :: l)]? with _ | x
    · exact List.mem_cons_self
    · exact List.mem_of_getElem? hg

/-- D_EXEC runs exactly when every byte holds a value (R120). -/
theorem someUnwritten_eq_none {w : Vector Bool 32} :
    someUnwritten w = none ↔ ∀ i : Fin 32, w[i] = true := by
  simp [someUnwritten, chooseUnwritten_eq_none]

/-- The byte a D_EXEC fault names holds no value (R146). -/
theorem someUnwritten_eq_some {w : Vector Bool 32} {i : Fin 32} (h : someUnwritten w = some i) :
    w[i] = false := by
  simpa using (List.mem_filter.1 (mem_of_chooseUnwritten h)).2

/-! ### Commands -/

/-- When a command is accepted, and the state it leaves (R88). -/
theorem accept_eq_next {d : Word} {entry : State → State} {s t : State} :
    accept d entry s = .next t ↔
      s.busy = false ∧ t = entry { s with cmd := d, result := .none, busy := true } := by
  unfold accept
  cases s.busy <;> simp [eq_comm]

/-- The two ways an acquisition failure goes (R101). -/
theorem acqFail_cases (r : ResultCode) (s : State) :
    (s.command = some .poll ∧ acqFail r s = { s with seq := .pHead }) ∨
      (s.command ≠ some .poll ∧ acqFail r s = finish r s) := by
  unfold acqFail
  by_cases h : s.command = some .poll
  · exact .inl ⟨h, if_pos h⟩
  · exact .inr ⟨h, if_neg h⟩

/-! ### The fault set -/

/-- The set holds the new reason and every old one (R146). -/
theorem mem_insertFault {f g : Fault} {fs : List Fault} : g ∈ insertFault f fs ↔ g = f ∨ g ∈ fs := by
  unfold insertFault
  split <;> simp_all [or_comm]

/-- The set keeps having no repeats (R146). -/
theorem nodup_insertFault {f : Fault} {fs : List Fault} (h : fs.Nodup) : (insertFault f fs).Nodup := by
  unfold insertFault
  split
  · exact h
  · rename_i hf
    exact List.nodup_append.2 ⟨h, by simp, by simpa using fun a ha (e : a = f) => hf (e ▸ ha)⟩

end Sys2Proof.Machine
end

