-- ==== Sys2Proof/Laws/Frame.lean ====
section
/-! SUPPORT. The decoder's bytes, sums and checks as facts about numbers (R120 to R126). -/

namespace Sys2Proof.Machine

/-- A sum of bytes is at most 255 a byte. -/
theorem byteSum_le (l : List Byte) : (l.map BitVec.toNat).sum ≤ 255 * l.length := by
  induction l with
  | nil => simp
  | cons b l ih => simp only [List.map_cons, List.sum_cons, List.length_cons]; have := b.isLt; omega

/-- The 30-byte sum is below 2^16, so the reduction of R122 never changes it. -/
theorem byteSum_frame_le (F : Vector Byte 32) : ((F.toList.take 30).map BitVec.toNat).sum ≤ 7650 := by
  have h := byteSum_le (F.toList.take 30)
  simp only [List.length_take, Vector.length_toList] at h
  omega

theorem frameByteAt_eq (F : Vector Byte 32) (o : Nat) (h : o < 32) : frameByteAt F o = F[o] := dif_pos h

/-- BE16at as a number (R20). -/
theorem be16At_toNat (F : Vector Byte 32) (o : Nat) (h : o + 1 < 32) :
    (be16At F o).toNat = F[o].toNat * 256 + F[o + 1].toNat := by
  rw [be16At, be16_toNat, frameByteAt_eq F o (by omega), frameByteAt_eq F (o + 1) h]

/-- The first 30 bytes: the marker, the declared length, and the 26 bytes that follow (R117). -/
theorem frame_take_30 (F : Vector Byte 32) :
    F.toList.take 30 = F[0] :: F[1] :: F[2] :: F[3] :: (F.toList.drop 4).take 26 := by
  apply List.ext_getElem
  · simp
  · intro i h1 h2
    rcases i with _ | _ | _ | _ | i <;> simp
    simp [show 4 + i = i + 1 + 1 + 1 + 1 by omega]

/-- The three checks of Decode as facts about numbers (R123, R124, R126). -/
theorem frame_checks (F : Vector Byte 32) :
    (frameByteAt F 0 ≠ Config.mark0 ∨ frameByteAt F 1 ≠ Config.mark1 ↔ F[0] ≠ 0x42 ∨ F[1] ≠ 0x4D) ∧
    (be16At F 2 ≠ Config.lenDecl ↔ F[2].toNat * 256 + F[3].toNat ≠ 28) ∧
    (be16At F 30 ≠ frameSum F ↔
      F[30].toNat * 256 + F[31].toNat ≠ ((F.toList.take 30).map BitVec.toNat).sum) := by
  have hs := byteSum_frame_le F
  have hsum : (frameSum F).toNat = ((F.toList.take 30).map BitVec.toNat).sum := by
    rw [frameSum, BitVec.toNat_ofNat, Nat.mod_eq_of_lt (by omega)]
  refine ⟨?_, ?_, ?_⟩
  · rw [frameByteAt_eq F 0 (by omega), frameByteAt_eq F 1 (by omega)]; rfl
  · rw [← be16At_toNat F 2 (by omega)]
    exact ⟨fun h e => h (BitVec.eq_of_toNat_eq e), fun h e => h (congrArg BitVec.toNat e)⟩
  · rw [← be16At_toNat F 30 (by omega), ← hsum]
    exact ⟨fun h e => h (BitVec.eq_of_toNat_eq e), fun h e => h (congrArg BitVec.toNat e)⟩

/-- When a frame decodes OK (R123, R124, R126). -/
theorem frameResult_eq_ok {F : Vector Byte 32} :
    frameResult F = .ok ↔ (F[0] = 0x42 ∧ F[1] = 0x4D) ∧ F[2].toNat * 256 + F[3].toNat = 28 ∧
      F[30].toNat * 256 + F[31].toNat = ((F.toList.take 30).map BitVec.toNat).sum := by
  obtain ⟨h1, h2, h3⟩ := frame_checks F
  unfold frameResult
  rw [ite_eq_iff, ite_eq_iff, ite_eq_iff, h1, h2, h3]
  simp [not_or]

end Sys2Proof.Machine
end

