-- ==== Sys2Proof/Laws/PerInstr.lean ====
section
/-! SUPPORT. The statements about every instruction, one lemma per constructor. RoundTrip: decoding the encoding of a
well-formed instruction gives it back (R71 to R76). -/

namespace Sys2Proof.Laws.RoundTrip

def Statement (i : Instr) : Prop := i.wf = true → decodeHbt (encode i) = .ok i

/-- A transaction that writes to CMD is decoded by the opcode map (R76 point 4). -/
theorem decodeHbt_cmd (d : Word) : decodeHbt (mkHbt true 0x00 d) = decodeCmd d := by
  simp [decodeHbt]

/-- A transaction that writes to ACK is decoded by the ACK words (R76 point 5). -/
theorem decodeHbt_ack (d : Word) : decodeHbt (mkHbt true 0x04 d) = decodeAck d := by
  simp [decodeHbt]

/-- A CMD word assembled from a command's OP and a legal ARG is that command (R72, R75). -/
theorem decodeCmd_mkCmd (c : Command) (h : Byte) (hc : c = .register ∨ h = 0#8) :
    decodeCmd (mkCmd h (commandOp c)) = .ok (commandInstr c h) := by
  have := (checkCmd_eq_ok (d := mkCmd h (commandOp c)) (c := c)).2 (by simpa using hc)
  simp [decodeCmd, this]

theorem poll : Statement .poll := fun _ => by
  rw [encode, decodeHbt_cmd]; exact decodeCmd_mkCmd .poll 0 (.inr rfl)

theorem acquire : Statement .acquire := fun _ => by
  rw [encode, decodeHbt_cmd]; exact decodeCmd_mkCmd .acquire 0 (.inr rfl)

theorem resync : Statement .resync := fun _ => by
  rw [encode, decodeHbt_cmd]; exact decodeCmd_mkCmd .resync 0 (.inr rfl)

theorem decode : Statement .decode := fun _ => by
  rw [encode, decodeHbt_cmd]; exact decodeCmd_mkCmd .decode 0 (.inr rfl)

theorem register (h : Byte) : Statement (.register h) := fun _ => by
  rw [encode, decodeHbt_cmd]; exact decodeCmd_mkCmd .register h (.inl rfl)

theorem notify : Statement .notify := fun _ => by
  rw [encode, decodeHbt_cmd]; exact decodeCmd_mkCmd .notify 0 (.inr rfl)

theorem ackDone : Statement .ackDone := fun _ => by
  rw [encode, decodeHbt_ack]; decide

theorem ackError : Statement .ackError := fun _ => by
  rw [encode, decodeHbt_ack]; decide

theorem rd (a : BusAddr) : Statement (.rd a) := fun h => by
  obtain ⟨r, hr⟩ := Option.isSome_iff_exists.1 h
  simp [encode, decodeHbt, hr]

theorem wr (a : BusAddr) (d : Word) : Statement (.wr a d) := fun h => by
  simp only [Instr.wf, Instr.wfWrite] at h
  rcases hr : Machine.regAt a with _ | r
  · simp [hr] at h
  · cases r <;> simp_all [encode, decodeHbt]

end Sys2Proof.Laws.RoundTrip
end

