-- ==== Sys2Proof/Laws/Step.lean ====
section
/-! SUPPORT. What a step can do, said once: the parts no meaning and no engine step touches, and the cases of a step. -/

namespace Sys2Proof.Machine

/-- The parts of the state that no instruction and no engine step changes: CAP, the channel's capacity, the marks and the
turns to come (R33, R16, R44). -/
structure SameRun (s t : State) : Prop where
  cap : t.cap = s.cap
  chanCap : t.chanCap = s.chanCap
  faulted : t.faulted = s.faulted
  refused : t.refused = s.refused
  hostHalted : t.hostHalted = s.hostHalted
  engineHalted : t.engineHalted = s.engineHalted
  turns : t.turns = s.turns
  later : t.later = s.later

theorem SameRun.refl (s : State) : SameRun s s := ⟨rfl, rfl, rfl, rfl, rfl, rfl, rfl, rfl⟩

/-- An acquirer failure touches STATUS and SEQ alone (R101). -/
theorem acqFail_eq (r : ResultCode) (s : State) :
    acqFail r s =
      { s with result := (acqFail r s).result, busy := (acqFail r s).busy, seq := (acqFail r s).seq } := by
  rcases acqFail_cases r s with ⟨-, h⟩ | ⟨-, h⟩
  · rw [h]
  · rw [h]; rfl

theorem acqFail_sameRun (r : ResultCode) (s : State) : SameRun s (acqFail r s) := by
  rw [acqFail_eq]; exact ⟨rfl, rfl, rfl, rfl, rfl, rfl, rfl, rfl⟩

/-! ### Inversion of the meanings -/

/-- A command from idle answers next, with its entry done in the same step (R88). -/
theorem execCommand_next {d : Word} {entry : State → State} {s : State} (h : s.busy = false) :
    accept d entry s = .next (entry { s with cmd := d, result := .none, busy := true }) :=
  accept_eq_next.2 ⟨h, rfl⟩

/-- What RD does when it answers next: the reply, and nothing else (R82, R64). -/
theorem execRd_next {a : BusAddr} {s t : State} (h : execRd a s = .next t) :
    ∃ r, regAt a = some r ∧ (∀ i, r = .fbuf i → s.written[i] = true) ∧
      t = { s with busReply := some (regValue r s) } := by
  unfold execRd at h
  rcases hr : regAt a with _ | r
  · simp [hr] at h
  · refine ⟨r, rfl, ?_⟩
    rw [hr] at h
    cases r with
    | fbuf i =>
      dsimp only [readReg] at h
      split at h
      · cases h
      · rename_i hw
        cases h
        exact ⟨fun j hj => by cases hj; simpa using hw, rfl⟩
    | _ => cases h; exact ⟨fun i hi => (by cases hi), rfl⟩

/-- What WR does when it answers next: it starts a command (R88), answers a notification (R139), stores a frame byte (R87),
or changes nothing (R85). -/
theorem execWr_next {a : BusAddr} {d : Word} {s t : State} (h : execWr a d s = .next t) :
    (∃ c, regAt a = some .cmd ∧ checkCmd d = .ok c ∧ accept d (entryOf c) s = .next t) ∨
      (regAt a = some .ack ∧ notePend s = true ∧
        (d = 0x0001 ∧ t = ackReturned s ∨ d = 0x0002 ∧ t = ackRaised s)) ∨
      (∃ i, regAt a = some (.fbuf i) ∧ s.busy = false ∧ t = setFrameByte i.val (lowByte d) s) ∨
      t = s := by
  unfold execWr at h
  rcases hr : regAt a with _ | r
  · simp [hr] at h
  · rw [hr] at h
    cases r with
    | cmd =>
      left
      dsimp only [issue] at h
      rcases hc : checkCmd d with e | c
      · simp [hc] at h
      · rw [hc] at h; exact ⟨c, rfl, rfl, h⟩
    | ack =>
      right; left
      dsimp only [ackWrite] at h
      split at h
      · cases h
      · rename_i hp
        have hp : notePend s = true := by simpa using hp
        split at h
        · cases h; exact ⟨rfl, hp, .inl ⟨by assumption, rfl⟩⟩
        · split at h
          · cases h; exact ⟨rfl, hp, .inr ⟨by assumption, rfl⟩⟩
          · cases h
    | fbuf i =>
      right; right; left
      dsimp only [writeFrameByte] at h
      split at h
      · cases h
      · cases h; exact ⟨i, rfl, by simpa using ‹¬ s.busy = true›, rfl⟩
    | _ => cases h; exact .inr (.inr (.inr rfl))

/-- What ACK DONE and ACK ERROR do when they answer next (R139). -/
theorem execAckDone_next {s t : State} (h : execAckDone s = .next t) :
    notePend s = true ∧ t = ackReturned s := by
  unfold execAckDone at h
  split at h
  · cases h
  · cases h; exact ⟨by simpa using ‹¬ notePend s = false›, rfl⟩

theorem execAckError_next {s t : State} (h : execAckError s = .next t) :
    notePend s = true ∧ t = ackRaised s := by
  unfold execAckError at h
  split at h
  · cases h
  · cases h; exact ⟨by simpa using ‹¬ notePend s = false›, rfl⟩

/-- Every next state an instruction can leave: a command's entry, one of the two answers of the handshake, a frame byte
stored, a reply given, or the same state. -/
theorem exec_next {i : Instr} {s t : State} (h : exec i s = .next t) :
    (∃ c d, checkCmd d = .ok c ∧ s.busy = false ∧
        t = entryOf c { s with cmd := d, result := .none, busy := true }) ∨
      (notePend s = true ∧ t = ackReturned s) ∨ (notePend s = true ∧ t = ackRaised s) ∨
      (∃ (i : Fin 32) (b : Byte), s.busy = false ∧ t = setFrameByte i.val b s) ∨
      (∃ v, t = { s with busReply := some v }) ∨ t = s := by
  have cmd : ∀ (c : Command) (d : Word), checkCmd d = .ok c → accept d (entryOf c) s = .next t →
      ∃ c d, checkCmd d = .ok c ∧ s.busy = false ∧
        t = entryOf c { s with cmd := d, result := .none, busy := true } :=
    fun c d hc ha => ⟨c, d, hc, (accept_eq_next.1 ha).1, (accept_eq_next.1 ha).2⟩
  cases i with
  | poll => exact .inl (cmd .poll 0x0001 rfl h)
  | acquire => exact .inl (cmd .acquire 0x0002 rfl h)
  | resync => exact .inl (cmd .resync 0x0003 rfl h)
  | decode => exact .inl (cmd .decode 0x0004 rfl h)
  | register x => exact .inl (cmd .register (mkCmd x 0x5) (checkCmd_eq_ok.2 (by simp [commandOp])) h)
  | notify => exact .inl (cmd .notify 0x0006 rfl h)
  | ackDone => exact .inr (.inl (execAckDone_next h))
  | ackError => exact .inr (.inr (.inl (execAckError_next h)))
  | rd a =>
    obtain ⟨r, -, -, rfl⟩ := execRd_next h
    exact .inr (.inr (.inr (.inr (.inl ⟨_, rfl⟩))))
  | wr a d =>
    rcases execWr_next h with ⟨c, -, hc, ha⟩ | ⟨-, hp, ⟨-, rfl⟩ | ⟨-, rfl⟩⟩ | ⟨i, -, hb, rfl⟩ | rfl
    · exact .inl (cmd c d hc ha)
    · exact .inr (.inl ⟨hp, rfl⟩)
    · exact .inr (.inr (.inl ⟨hp, rfl⟩))
    · exact .inr (.inr (.inr (.inl ⟨i, _, hb, rfl⟩)))
    · exact .inr (.inr (.inr (.inr (.inr rfl))))

/-- No instruction touches CAP, the channel's capacity, the marks or the turns to come. -/
theorem exec_sameRun {i : Instr} {s t : State} (h : exec i s = .next t) : SameRun s t := by
  rcases exec_next h with ⟨c, d, -, -, rfl⟩ | ⟨-, rfl⟩ | ⟨-, rfl⟩ | ⟨i, b, -, rfl⟩ | ⟨v, rfl⟩ | rfl
  · cases c <;> exact ⟨rfl, rfl, rfl, rfl, rfl, rfl, rfl, rfl⟩
  all_goals exact ⟨rfl, rfl, rfl, rfl, rfl, rfl, rfl, rfl⟩

/-- No engine step touches CMD, CAP, the channel's capacity, the marks, the turns to come or the host's reply. -/
theorem engineStep_sameRun {s t : State} (h : engineStep s = .next t) :
    SameRun s t ∧ t.cmd = s.cmd ∧ t.busReply = s.busReply ∧ t.timer = s.timer := by
  have fail : ∀ r (u : State), SameRun s u → u.cmd = s.cmd → u.busReply = s.busReply → u.timer = s.timer →
      SameRun s (acqFail r u) ∧ (acqFail r u).cmd = s.cmd ∧ (acqFail r u).busReply = s.busReply ∧
        (acqFail r u).timer = s.timer := by
    intro r u hu h1 h2 h3
    rw [acqFail_eq]
    exact ⟨⟨hu.1, hu.2, hu.3, hu.4, hu.5, hu.6, hu.7, hu.8⟩, h1, h2, h3⟩
  have same : ∀ u : State, u.cap = s.cap → u.chanCap = s.chanCap → u.faulted = s.faulted →
      u.refused = s.refused → u.hostHalted = s.hostHalted → u.engineHalted = s.engineHalted →
      u.turns = s.turns → u.later = s.later → u.cmd = s.cmd → u.busReply = s.busReply → u.timer = s.timer →
      SameRun s u ∧ u.cmd = s.cmd ∧ u.busReply = s.busReply ∧ u.timer = s.timer :=
    fun u a b c d e f g l i j k => ⟨⟨a, b, c, d, e, f, g, l⟩, i, j, k⟩
  unfold engineStep at h
  split at h
  case h_12 =>
    unfold stepDExec at h
    split at h
    · cases h
    · cases h
      unfold routeDecode
      split
      · split <;> exact same _ rfl rfl rfl rfl rfl rfl rfl rfl rfl rfl rfl
      · exact same _ rfl rfl rfl rfl rfl rfl rfl rfl rfl rfl rfl
  all_goals cases h
  case h_1 => exact same _ rfl rfl rfl rfl rfl rfl rfl rfl rfl rfl rfl
  case h_2 => unfold stepGExec; split <;> exact same _ rfl rfl rfl rfl rfl rfl rfl rfl rfl rfl rfl
  case h_3 =>
    unfold stepPHead
    split
    · exact same _ rfl rfl rfl rfl rfl rfl rfl rfl rfl rfl rfl
    · split
      · exact same _ rfl rfl rfl rfl rfl rfl rfl rfl rfl rfl rfl
      · split <;> exact same _ rfl rfl rfl rfl rfl rfl rfl rfl rfl rfl rfl
  case h_4 =>
    unfold stepASample
    split
    · exact fail _ _ (.refl s) rfl rfl rfl
    · split <;> exact same _ rfl rfl rfl rfl rfl rfl rfl rfl rfl rfl rfl
  case h_5 => unfold stepARead32; apply same <;> simp
  case h_6 =>
    unfold stepRRead
    split
    · exact same _ rfl rfl rfl rfl rfl rfl rfl rfl rfl rfl rfl
    · split <;> exact same _ rfl rfl rfl rfl rfl rfl rfl rfl rfl rfl rfl
  case h_7 => unfold stepRPeek; split <;> exact same _ rfl rfl rfl rfl rfl rfl rfl rfl rfl rfl rfl
  case h_8 => unfold stepRTake2; split <;> exact same _ rfl rfl rfl rfl rfl rfl rfl rfl rfl rfl rfl
  case h_9 =>
    unfold stepRFlush
    split
    · exact same _ rfl rfl rfl rfl rfl rfl rfl rfl rfl rfl rfl
    · exact fail _ _ ⟨rfl, rfl, rfl, rfl, rfl, rfl, rfl, rfl⟩ rfl rfl rfl
  case h_10 =>
    unfold stepAMark
    split
    · exact fail _ _ ⟨rfl, rfl, rfl, rfl, rfl, rfl, rfl, rfl⟩ rfl rfl rfl
    · exact same _ rfl rfl rfl rfl rfl rfl rfl rfl rfl rfl rfl
  case h_11 => unfold stepARead30; apply same <;> simp
  case h_13 =>
    unfold stepNNext
    split
    · split <;> exact same _ rfl rfl rfl rfl rfl rfl rfl rfl rfl rfl rfl
    · exact same _ rfl rfl rfl rfl rfl rfl rfl rfl rfl rfl rfl
  case h_14 => exact same _ rfl rfl rfl rfl rfl rfl rfl rfl rfl rfl rfl

/-! ### The cases of a step -/

/-- A state that is not refused takes its next turn (R22, R145). -/
theorem step_eq {s : State} (hr : s.refused = false) : step s = runTurn (nextTurn s) (spendTurn s) := by
  rw [step, if_neg (by simp [hr]), takeTurn]

/-- A listed turn is spent and run (R22). -/
theorem step_of_turn {s : State} {t : Turn} {ts : List Turn} (hr : s.refused = false)
    (h : s.turns = t :: ts) : step s = runTurn t { s with turns := ts } := by
  rw [step_eq hr, (turn_of_listed h).1, (turn_of_listed h).2]

/-- When no turn is listed and the engine alone goes on, it has the turn (R22). -/
theorem step_of_no_turn {s : State} (hr : s.refused = false) (h : s.turns = []) (hl : s.later = .engine) :
    step s = engineTurn s := by
  rw [step_eq hr, (turn_of_engine_later h hl).1, (turn_of_engine_later h hl).2, runTurn]

theorem hostTurn_ok {s : State} {w : Hbt} {i : Instr} (hh : s.hostHalted = false)
    (hd : decodeHbt w = .ok i) : hostTurn w s = exec i s := by
  rw [hostTurn, if_neg (by simp [hh]), hd]

theorem hostTurn_reject {s : State} {w : Hbt} {e : DecodeError} (hh : s.hostHalted = false)
    (hd : decodeHbt w = .reject e) : hostTurn w s = .refused (rejection e s) := by
  rw [hostTurn, if_neg (by simp [hh]), hd]

theorem engineTurn_eq {s : State} (he : s.engineHalted = false) : engineTurn s = engineStep s := by
  rw [engineTurn, if_neg (by simp [he])]

/-- A step that answers next: an agent that has halted or has no step lets its turn pass, the host runs a decoded
instruction, the engine takes its micro-step, the producer appends, or reset is asserted (R22). -/
theorem step_next {s t : State} (h : step s = .next t) :
    s.refused = false ∧
      let u : State := spendTurn s
      (nextTurn s = .engine ∧ s.engineHalted = true ∧ t = u) ∨
      (nextTurn s = .engine ∧ s.engineHalted = false ∧ engineStep u = .next t) ∨
      (∃ w, nextTurn s = .host w ∧ s.hostHalted = true ∧ t = u) ∨
      (∃ w i, nextTurn s = .host w ∧ s.hostHalted = false ∧ decodeHbt w = .ok i ∧ exec i u = .next t) ∨
      (∃ b, nextTurn s = .producer b ∧ t = chAppend b u) ∨
      (∃ r, nextTurn s = .reset r ∧ t = resetSignal r u) := by
  unfold step at h
  split at h
  · cases h
  · rename_i hr
    refine ⟨by simpa using hr, ?_⟩
    unfold takeTurn runTurn at h
    intro u
    rcases hn : nextTurn s with _ | w | b | r
    · rw [hn] at h
      dsimp only [engineTurn] at h
      split at h
      · cases h; exact .inl ⟨rfl, by simpa using ‹(spendTurn s).engineHalted = true›, rfl⟩
      · rename_i he; exact .inr (.inl ⟨rfl, by simpa using he, h⟩)
    · rw [hn] at h
      dsimp only [hostTurn] at h
      split at h
      · cases h; exact .inr (.inr (.inl ⟨w, rfl, by simpa using ‹(spendTurn s).hostHalted = true›, rfl⟩))
      · rename_i he
        rcases hd : decodeHbt w with i | e
        · rw [hd] at h
          exact .inr (.inr (.inr (.inl ⟨w, i, rfl, by simpa using he, hd, h⟩)))
        · rw [hd] at h; cases h
    · rw [hn] at h; cases h; exact .inr (.inr (.inr (.inr (.inl ⟨b, rfl, rfl⟩))))
    · rw [hn] at h; cases h; exact .inr (.inr (.inr (.inr (.inr ⟨r, rfl, rfl⟩))))

/-- A step that answers next leaves the marks as they were, and spends one turn (R145, R146). -/
theorem step_marks {s t : State} (h : step s = .next t) :
    t.faulted = s.faulted ∧ t.refused = s.refused ∧ t.hostHalted = s.hostHalted ∧
      t.engineHalted = s.engineHalted ∧ t.turns = (spendTurn s).turns ∧ t.later = (spendTurn s).later := by
  have same {u : State} (e : SameRun (spendTurn s) u) : u.faulted = s.faulted ∧ u.refused = s.refused ∧
      u.hostHalted = s.hostHalted ∧ u.engineHalted = s.engineHalted ∧ u.turns = (spendTurn s).turns ∧
      u.later = (spendTurn s).later := by
    exact ⟨e.3.trans (spendTurn_faulted s), e.4.trans (spendTurn_refused s), e.5.trans (spendTurn_hostHalted s),
      e.6.trans (spendTurn_engineHalted s), e.7, e.8⟩
  obtain ⟨-, h⟩ := step_next h
  rcases h with ⟨-, -, rfl⟩ | ⟨-, -, h⟩ | ⟨w, -, -, rfl⟩ | ⟨w, i, -, -, -, h⟩ | ⟨b, -, rfl⟩ | ⟨r, -, rfl⟩
  · exact same (.refl _)
  · exact same (engineStep_sameRun h).1
  · exact same (.refl _)
  · exact same (exec_sameRun h)
  · unfold chAppend; split <;> exact same ⟨rfl, rfl, rfl, rfl, rfl, rfl, rfl, rfl⟩
  · simp

end Sys2Proof.Machine
end

