-- ==== Sys2Proof/Machine/HostProgram.lean ====
section
/-! DEFINITION. The pseudo-instructions of the host's assembly notation (R81). The host's program and its branches stand
outside the block (R71); these functions say which bus transactions each pseudo-instruction makes, given what the host
reads back. The step of the machine uses none of them. -/

namespace Sys2Proof.Machine

/-- LOADFRAME b0, ..., b31: 32 writes to FBUF in index order (R81). -/
def loadFrame (F : Vector Byte 32) : List Instr :=
  (List.finRange 32).map fun i => .wr (regAddr (.fbuf i)) (zextByte F[i])

/-- Where the host stands in WAITIDLE or SERVE (R81). -/
inductive Serve
  /-- At L: about to read STATUS. -/
  | status
  /-- SERVE only: about to read NOTE. -/
  | note
  /-- SERVE only: inside the handler, with the transactions it has left; the last one is its ACK write. -/
  | handling (left : List Instr)
  /-- Left the loop: BUSY read 0. -/
  | done
deriving DecidableEq, Repr

/-- The transaction the host makes next (R81). -/
def serveIssue : Serve → Option Instr
  | .status => some (.rd (regAddr .status))
  | .note => some (.rd (regAddr .note))
  | .handling [] => none
  | .handling (i :: _) => some i
  | .done => none

/-- WAITIDLE: back to L while bit 4 of the STATUS read is 1 (R81). -/
def waitIdleAfter (reply : Word) : Serve := if reply.getLsbD 4 then .status else .done

/-- SERVE handler: where the host goes once it has made its transaction and read the reply (R81). -/
def serveAfter (handler : Byte → List Instr) (reply : Word) : Serve → Serve
  | .status => if reply.getLsbD 4 then .note else .done
  | .note => if reply.getLsbD 15 then .handling (handler (reply.extractLsb' 0 8)) else .status
  | .handling (_ :: i :: left) => .handling (i :: left)
  | .handling _ => .status
  | .done => .done

/-- The handler `ackall` of RUN: reads MEAS1 to MEAS12 and issues ACK DONE (R81). -/
def ackAll (_h : Byte) : List Instr :=
  (List.finRange 12).map (fun k => .rd (regAddr (.meas k))) ++ [.ackDone]

end Sys2Proof.Machine
end

