-- ==== Sys2Proof/Tests/Slice0.lean ====
section
/-! SUPPORT. The model's own tests: words and results written out from the spec's tables and vectors (95_test_vectors.md),
ill-formed terms that WellFormed refuses, and, for every statement with hypotheses, a concrete case that meets them. -/

namespace Sys2Proof.Tests

open Sys2Proof.Machine

/-! ### Helpers -/

/-- A check of the next state of an answer. -/
def onNext (o : Answer) (p : State → Bool) : Bool :=
  match o with
  | .next t => p t
  | .fault _ => false
  | .refused _ => false

def refusedWith (o : Answer) (r : Refusal) : Bool :=
  match o with
  | .next _ => false
  | .fault _ => false
  | .refused r' => r' == r

def faultedWith (o : Answer) (f : Fault) : Bool :=
  match o with
  | .next _ => false
  | .fault f' => f' == f
  | .refused _ => false

/-- The worked frame W (L1-1). -/
def frameW : Vector Byte 32 :=
  #v[0x42, 0x4D, 0x00, 0x1C, 0x00, 0x32, 0x00, 0x64, 0x00, 0x96, 0x00, 0x32, 0x00, 0x64, 0x00, 0x96,
    0x00, 0x32, 0x00, 0x64, 0x00, 0x96, 0x00, 0x96, 0x00, 0x01, 0x00, 0x02, 0x00, 0x00, 0x04, 0xC8]

/-- A frame of one marker and length, 26 equal bytes, and a checksum field (VD2, VD3). -/
def frameOf (body hi lo : Byte) : Vector Byte 32 :=
  Vector.ofFn fun i : Fin 32 =>
    if i.val = 0 then 0x42 else if i.val = 1 then 0x4D else if i.val = 2 then 0x00
    else if i.val = 3 then 0x1C else if i.val = 30 then hi else if i.val = 31 then lo else body

/-- The machine after reset, busy with a command word at an engine step. -/
def running (d : Word) (q : Seq) : State := { State.reset with cmd := d, busy := true, seq := q }

/-- A channel of n bytes 0x11. -/
def fill (n : Nat) : List Byte := List.replicate n 0x11

/-- All 32 bytes of FBUF written, holding a frame. -/
def loaded (F : Vector Byte 32) (s : State) : State :=
  { s with fbuf := F, written := Vector.replicate 32 true }

/-- A poll that waits for the answer to its one observer, handle 1 (R138's example). -/
def waiting : State :=
  { running 0x0001 .nWait with
    pollst := .attempting
    retry := 2
    timer := .running
    count := 1
    obs := State.reset.obs.set 0 0x01
    note := 0x8001 }

/-- A poll whose first loop head comes next, on a channel. -/
def polling (q : List Byte) : State :=
  { running 0x0001 .pHead with
    pollst := .attempting
    retry := 3
    pfirst := true
    timer := .running
    queue := q }

/-! ### Encoding, from R71 to R75 and R81 -/

theorem test_decode_words :
    decodeHbt 0b1_00000000_0000000000000001 = .ok .poll ∧
      decodeHbt 0b1_00000000_0000000000000010 = .ok .acquire ∧
      decodeHbt 0b1_00000000_0000000000000011 = .ok .resync ∧
      decodeHbt 0b1_00000000_0000000000000100 = .ok .decode ∧
      decodeHbt 0b1_00000000_0000000100000101 = .ok (.register 0x01) ∧
      decodeHbt 0b1_00000000_0000000000000110 = .ok .notify ∧
      decodeHbt 0b1_00000100_0000000000000001 = .ok .ackDone ∧
      decodeHbt 0b1_00000100_0000000000000010 = .ok .ackError ∧
      decodeHbt 0b0_01000011_0000000000000000 = .ok (.rd 0x43) ∧
      decodeHbt 0b1_00111111_0000000011001100 = .ok (.wr 0x3F 0x00CC) := by decide

/-- VH3, VH9, VH10, VH11, VH17, VH19. -/
theorem test_decode_rejections :
    decodeHbt 0x0050000 = .reject .unmappedAddress ∧ decodeHbt 0x01A0000 = .reject .unmappedAddress ∧
      decodeHbt 0x04C0000 = .reject .unmappedAddress ∧ decodeHbt 0x1000000 = .reject .reservedOpcode ∧
      decodeHbt 0x1000007 = .reject .reservedOpcode ∧ decodeHbt 0x100000F = .reject .reservedOpcode ∧
      decodeHbt 0x1000011 = .reject .reservedField ∧ decodeHbt 0x1000101 = .reject .reservedField ∧
      decodeHbt 0x1040003 = .reject .reservedAckCode ∧
      decodeHbt 0x0010001 = .reject .malformedTransaction := by decide

theorem test_table_words :
    decodeTableWord 16 0x0001 = some .poll ∧ decodeTableWord 16 0x0005 = some (.register 0) ∧
      decodeTableWord 16 0x0006 = some .notify ∧ decodeTableWord 32 0x0000000 = some (.rd 0x00) ∧
      decodeTableWord 32 0x1200042 = some (.wr 0x20 0x0042) ∧
      decodeTableWord 32 0x1040001 = some .ackDone ∧ decodeTableWord 32 0x2000000 = none := by decide

/-- Ill-formed terms: an unmapped read, an unmapped write, and plain writes to CMD and to ACK. -/
theorem test_wellFormed_refuses :
    (Instr.rd 0x05).wf = false ∧ (Instr.wr 0x4C 0x0000).wf = false ∧ (Instr.wr 0x00 0x0001).wf = false ∧
      (Instr.wr 0x04 0x0001).wf = false := by decide

/-- LOADFRAME: WR FBUF0, 0x42 = 0x1200042 and WR FBUF31, 0xC8 = 0x13F00C8 (L3-2). -/
theorem test_loadFrame_words :
    ((loadFrame frameW).map encode).head? = some 0x1200042 ∧
      ((loadFrame frameW).map encode).getLast? = some 0x13F00C8 ∧ (loadFrame frameW).length = 32 := by
  decide

/-! ### One step each, from the vectors -/

/-- VH13. -/
theorem test_poll_issue :
    onNext (exec .poll State.reset)
      (fun t => t.cmd == 0x0001 && statusWord t == 0x0330 && t.seq == .pHead) = true := by decide

/-- R92's example: RETRY = 3, channel empty. -/
theorem test_poll_head_empty :
    onNext (engineStep (polling [])) (fun t => t.retry == 2 && t.seq == .pHead && t.queue == []) = true := by
  decide

theorem test_acquire_issue :
    onNext (exec .acquire State.reset)
      (fun t => t.cmd == 0x0002 && statusWord t == 0x0010 && t.seq == .aSample) = true := by decide

/-- R102's example: a = 31 gives InsufficientData with Q unchanged. -/
theorem test_acquire_short :
    onNext (engineStep { running 0x0002 .aSample with queue := fill 31 })
      (fun t => statusWord t == 0x0002 && t.queue == fill 31) = true := by decide

/-- VS2's second step: the peeked 0x42 is kept. -/
theorem test_resync_peek_keeps :
    onNext (engineStep { running 0x0003 .rPeek with queue := [0x42, 0x4D, 0x07] })
      (fun t => t.seq == .rRead && t.queue == [0x42, 0x4D, 0x07]) = true := by decide

/-- VS1's last step. -/
theorem test_resync_take :
    onNext (engineStep { running 0x0003 .rTake2 with queue := [0x4D, 0x00, 0x1C] })
      (fun t => statusWord t == 0x0001 && t.queue == [0x00, 0x1C]) = true := by decide

/-- VD1. -/
theorem test_decode_worked_frame :
    onNext (engineStep (loaded frameW (running 0x0004 .dExec)))
      (fun t => statusWord t == 0x0001 &&
        t.meas == #v[50, 100, 150, 50, 100, 150, 50, 100, 150, 150, 1, 2]) = true := by decide

/-- VD12. -/
theorem test_decode_unwritten :
    faultedWith (engineStep { loaded frameW (running 0x0004 .dExec) with
      written := (Vector.replicate 32 true).set 31 false }) (.unwrittenFrameByte 31) = true := by decide

/-- VG1's first REGISTER, with REQ_MAX = 2. -/
theorem test_register_appends :
    onNext (engineStep { State.powerOn 2 64 with cmd := 0x0705, busy := true, seq := .gExec })
      (fun t => configWord t == 0x0012 && t.obs == State.reset.obs.set 0 7 && t.result == .ok) = true := by
  decide

/-- R133's example: CAP = 2, COUNT = 2, REGISTER 0x07 is dropped. -/
theorem test_register_drops :
    onNext (engineStep { State.powerOn 2 64 with
      cmd := 0x0705, busy := true, seq := .gExec, count := 2, obs := (State.reset.obs.set 0 7).set 1 9 })
      (fun t => configWord t == 0x0022 && t.obs == (State.reset.obs.set 0 7).set 1 9 && t.result == .ok) =
        true := by decide

/-- R138's example: COUNT = 1, OBS[0] = 0x01. -/
theorem test_notify_emits :
    onNext (engineStep { running 0x0006 .nNext with count := 1, obs := State.reset.obs.set 0 0x01 })
      (fun t => t.note == 0x8001 && t.seq == .nWait) = true := by decide

/-- VN2: with no observers the first N_NEXT ends OK. -/
theorem test_notify_none :
    onNext (engineStep (running 0x0006 .nNext)) (fun t => statusWord t == 0x0001 && t.seq == .idle) = true := by
  decide

/-- R139's example. -/
theorem test_ackDone :
    onNext (exec .ackDone waiting) (fun t => t.note == 0 && t.nidx == 1 && t.seq == .nNext) = true := by decide

/-- VP9: CallbackError, ATTEMPTING, RETRY 2. -/
theorem test_ackError : onNext (exec .ackError waiting) (fun t => statusWord t == 0x0228 && t.note == 0) = true := by
  decide

/-- VH1: RD CONFIG after reset with REQ_MAX = 4. -/
theorem test_rd_config :
    onNext (exec (.rd 0x02) (State.powerOn 4 64)) (fun t => t.busReply == some 0x0004) = true := by decide

/-- VH4: RD FBUF0 after reset. -/
theorem test_rd_unwritten : faultedWith (exec (.rd 0x20) State.reset) (.unwrittenFrameByte 0) = true := by decide

/-- VH5's write: 0xAB42 stores 0x42. -/
theorem test_wr_frame_byte :
    onNext (exec (.wr 0x20 0xAB42) State.reset)
      (fun t => t.fbuf[0] == 0x42 && t.written[0] && !t.written[1]) = true := by decide

/-- VH6: a write to STATUS is ignored. -/
theorem test_wr_status : onNext (exec (.wr 0x01 0xFFFF) State.reset) (fun t => t == State.reset) = true := by
  decide

/-- A list that comes again is listed anew when it is spent, and an open schedule goes on to its next turn. -/
theorem test_turns_come_again :
    (spendTurn { State.reset with later := .again [.producer 0x11, .engine] }).turns = [.engine] ∧
      (spendTurn { State.reset with later := .free 2 5 }).later = .free 2 6 := by decide

/-- VD2, VD3, VD6, VD7, VD9, VD10 and VD8. -/
theorem test_frame_results :
    frameResult (frameOf 0x00 0x00 0xAB) = .ok ∧ frameResult (frameOf 0xFF 0x1A 0x91) = .ok ∧
      frameResult ((frameW.set 0 0x4D).set 1 0x42) = .headerMismatch ∧
      frameResult ((frameW.set 3 0x1D).set 31 0xC9) = .lengthMismatch ∧
      frameResult (((frameW.set 0 0x00).set 2 0xFF).set 30 0x00) = .headerMismatch ∧
      frameResult ((frameW.set 2 0x01).set 30 0x00) = .lengthMismatch ∧
      frameResult ((frameW.set 5 0x33).set 7 0x63) = .ok := by decide

/-! ### Witnesses: a case that meets the hypotheses of each statement -/

/-- The invariant holds in the states the witnesses use. -/
theorem inv_reset : State.reset.Inv := by
  constructor
  case result_idle => exact fun _ => .inl ⟨rfl, rfl⟩
  all_goals decide

theorem inv_waiting : waiting.Inv := by
  constructor
  case result_idle => intro h; simp [waiting, running] at h
  all_goals decide

theorem inv_polling : (polling (fill 1)).Inv := by
  constructor
  case result_idle => intro h; simp [polling, running] at h
  all_goals decide

/-- The invariant does not look at the turns to come. -/
theorem inv_withTurns {s : State} (h : s.Inv) (ts : List Turn) : State.Inv { s with turns := ts } := by
  cases h; constructor <;> assumption

theorem witness_CmdWordsMatchOpcodeMap :
    decodeCmd 0x0000 = .reject .reservedOpcode ∧ decodeCmd 0x0007 = .reject .reservedOpcode ∧
      decodeCmd 0x000F = .reject .reservedOpcode ∧ decodeCmd 0x0005 = .ok (.register 0x00) ∧
      decodeCmd 0xFF05 = .ok (.register 0xFF) ∧ decodeCmd 0x0006 = .ok .notify := by decide

theorem witness_AckWordsAreDoneAndError :
    decodeAck 0x0000 = .reject .reservedAckCode ∧ decodeAck 0x0001 = .ok .ackDone ∧
      decodeAck 0x0002 = .ok .ackError ∧ decodeAck 0x0003 = .reject .reservedAckCode ∧
      decodeAck 0xFFFF = .reject .reservedAckCode := by decide

/-- Every boundary of the register map: the address below and above each row. -/
theorem witness_HostStepDecodingOrder :
    (0x0001 : Word) ≠ 0 ∧ regAt 0x05 = none ∧ regAt 0x0F = none ∧ regAt 0x1A = none ∧ regAt 0x1F = none ∧
      regAt 0x4C = none ∧ regAt 0xFF = none ∧ regAt 0x01 ≠ none ∧ regAt 0x03 ≠ none ∧ regAt 0x10 ≠ none ∧
      regAt 0x19 ≠ none ∧ regAt 0x20 ≠ none ∧ regAt 0x3F ≠ none ∧ regAt 0x40 ≠ none ∧ regAt 0x4B ≠ none := by
  decide

theorem witness_DecodeEncodeRoundTrip :
    Instr.poll.wf = true ∧ (Instr.register 0xFF).wf = true ∧ (Instr.rd 0x04).wf = true ∧
      (Instr.rd 0x4B).wf = true ∧ (Instr.wr 0x01 0xFFFF).wf = true ∧ (Instr.wr 0x3F 0x0000).wf = true := by decide

theorem witness_AcceptedWordIsAnEncoding :
    decodeHbt 0x1000105 = .ok (.register 1) ∧ decodeHbt 0x1200042 = .ok (.wr 0x20 0x0042) := by decide

/-- A listed turn of the host, and one that comes again and again. -/
theorem witness_StepRunsDecodedInstruction :
    let s : State := { State.reset with turns := [.host 0x1000001, .engine] }
    let u : State := { State.reset with later := .again [.host 0x1000001] }
    (s.refused = false ∧ s.hostHalted = false ∧ nextTurn s = .host 0x1000001 ∧
        s.turns = .host 0x1000001 :: [.engine]) ∧
      (u.refused = false ∧ u.hostHalted = false ∧ nextTurn u = .host 0x1000001) ∧
      decodeHbt 0x1000001 = .ok .poll := by decide

/-- The premises on the state, and a word for each of the five clauses. -/
theorem witness_StepRefusesRejectedTransaction :
    let s : State := { State.reset with turns := [.host 0x0010001] }
    s.refused = false ∧ s.hostHalted = false ∧ nextTurn s = .host 0x0010001 ∧
      decodeHbt 0x0010001 = .reject .malformedTransaction ∧ decodeHbt 0x0050000 = .reject .unmappedAddress ∧
      decodeHbt 0x1000000 = .reject .reservedOpcode ∧ decodeHbt 0x1000011 = .reject .reservedField ∧
      decodeHbt 0x1040003 = .reject .reservedAckCode := by decide

theorem witness_RejectedWriteIsBusWriteRefusal :
    decodeHbt (mkHbt true 0x00 0x0007) = .reject .reservedOpcode ∧
      decodeHbt (mkHbt true 0x04 0x0003) = .reject .reservedAckCode ∧
      decodeHbt (mkHbt true 0x05 0x0000) = .reject .unmappedAddress := by decide

theorem witness_DecodedWriteIsBusWrite :
    decodeHbt (mkHbt true 0x00 0x0001) = .ok .poll ∧ decodeHbt (mkHbt true 0x04 0x0002) = .ok .ackError ∧
      decodeHbt (mkHbt true 0x20 0x0042) = .ok (.wr 0x20 0x0042) := by decide

theorem witness_PlacedTableWordRunsNext :
    State.reset.refused = false ∧ State.reset.hostHalted = false ∧ decodeTableWord 16 0x0003 = some .resync ∧
      decodeTableWord 32 0x1200042 = some (.wr 0x20 0x0042) := by decide

/-- The engine's turn with none listed, listed, and after a producer's that came again. -/
theorem witness_EngineTurnRunsMicroStep :
    State.reset.refused = false ∧ State.reset.engineHalted = false ∧ State.reset.turns = [] ∧
      State.reset.later = .engine ∧ nextTurn State.reset = .engine ∧
      State.reset.seq = .idle ∧ waiting.seq = .nWait ∧
      ({ waiting with turns := [.engine] } : State).turns = .engine :: [] ∧
      nextTurn (spendTurn { waiting with later := .again [.producer 0x11, .engine] }) = .engine := by decide

/-- Both ends of FBUF, written and not, and an unmapped address. -/
theorem witness_RdReturnsTheRegister :
    let s := loaded frameW State.reset
    s.written[(0 : Fin 32)] = true ∧ s.written[(31 : Fin 32)] = true ∧
      State.reset.written[(0 : Fin 32)] = false ∧ State.reset.written[(31 : Fin 32)] = false ∧
      regAt 0x05 = none ∧ regAt 0xFF = none := by decide

/-- OBS slots at and above COUNT, and an empty NOTE. -/
theorem witness_RdReturnsTheRegister_inv :
    State.reset.Inv ∧ State.reset.count.toNat ≤ (0 : Fin 10).val ∧ State.reset.count.toNat ≤ (9 : Fin 10).val ∧
      State.reset.note.getLsbD 15 = false :=
  ⟨inv_reset, by decide, by decide, rfl⟩

theorem witness_WrReadOnlyChangesNothing :
    Reg.status = .status ∧ (∃ j, Reg.obs 9 = .obs j) ∧ (∃ k, Reg.meas 11 = .meas k) :=
  ⟨rfl, ⟨9, rfl⟩, ⟨11, rfl⟩⟩

theorem witness_WrFrameByteStoresLowByte :
    waiting.busy = true ∧ State.reset.busy = false ∧ (31 : Fin 32) ≠ 0 := by decide

theorem witness_BusyRefusesCommandAndFrameWrites : waiting.busy = true := by decide

/-- One word for each clause of Issue, at the ends of its range. -/
theorem witness_IssueChecksAndStartsCommand :
    waiting.busy = true ∧ State.reset.busy = false ∧ (0x0000 : Word).toNat % 16 = 0 ∧
      7 ≤ (0x0007 : Word).toNat % 16 ∧ 7 ≤ (0x000F : Word).toNat % 16 ∧
      ((0x0011 : Word).toNat % 16 = 1 ∧ (0x0011 : Word).toNat / 16 % 16 ≠ 0) ∧
      ((0x00F6 : Word).toNat % 16 = 6 ∧ (0x00F6 : Word).toNat / 16 % 16 ≠ 0) ∧
      ((0x0101 : Word).toNat % 16 = 1 ∧ (0x0101 : Word).toNat / 256 ≠ 0) ∧
      ((0x0106 : Word).toNat % 16 = 6 ∧ (0x0106 : Word).toNat / 256 ≠ 0) ∧
      ((0x0001 : Word).toNat % 16 = 1 ∧ (0x0001 : Word).toNat / 16 % 16 = 0 ∧ (0x0001 : Word).toNat / 256 = 0) ∧
      ((0x0006 : Word).toNat % 16 = 6 ∧ (0x0006 : Word).toNat / 16 % 16 = 0 ∧ (0x0006 : Word).toNat / 256 = 0) ∧
      ((0xFF05 : Word).toNat % 16 = 5 ∧ (0xFF05 : Word).toNat / 16 % 16 = 0) := by decide

theorem witness_IssueChecksAndStartsCommand_start :
    let s : State := { State.reset with turns := [.host 0x1000001] }
    s.busy = false ∧ ∃ t, step s = .next t ∧ t.busy = true := ⟨rfl, _, rfl, rfl⟩

theorem witness_PollStartsAPollSession : State.reset.busy = false := by decide

theorem witness_AcquireResyncDecodeStart : State.reset.busy = false := by decide

theorem witness_RegisterNotifyStart : State.reset.busy = false := by decide

theorem witness_AckAnswersThePendingNotification :
    State.reset.note.getLsbD 15 = false ∧ waiting.note.getLsbD 15 = true ∧
      (0x0000 : Word) ≠ 0x0001 ∧ (0x0003 : Word) ≠ 0x0002 := by decide

/-- The end of a poll, the end of NOTIFY, and the notifications of the first and the last slot. -/
theorem witness_NextNotificationOrEnd :
    let p := running 0x0001 .nNext
    let n := running 0x0006 .nNext
    p.seq = .nNext ∧ p.nidx = p.count ∧ p.command = some .poll ∧ n.nidx = n.count ∧ n.command = some .notify ∧
      ({ n with count := 1 } : State).nidx.toNat < 10 ∧
      ({ n with count := 1 } : State).nidx ≠ ({ n with count := 1 } : State).count ∧
      ({ n with count := 10, nidx := 9 } : State).nidx.toNat < 10 ∧
      ({ n with count := 10, nidx := 9 } : State).nidx ≠ ({ n with count := 10, nidx := 9 } : State).count := by
  decide

/-- An appended handle into the first and the last slot, a null handle, and a full registry. -/
theorem witness_RegisterAppendsOrDrops :
    let s := running 0x0105 .gExec
    s.seq = .gExec ∧ s.cap ≤ 10 ∧ s.count.toNat < 10 ∧ s.cmd.toNat / 256 ≠ 0 ∧ s.count < s.cap ∧
      ({ s with count := 9 } : State).count < ({ s with count := 9 } : State).cap ∧
      ({ s with cmd := 0x0005 } : State).cmd.toNat / 256 = 0 ∧
      ¬ ({ s with count := 10 } : State).count < ({ s with count := 10 } : State).cap := by decide

/-- The five branches of the loop head. -/
theorem witness_PollHeadRetriesOrEnds :
    let s := polling []
    s.seq = .pHead ∧ ({ s with retry := 0 } : State).retry = 0 ∧ s.retry ≠ 0 ∧ s.pfirst = true ∧
      ({ s with pfirst := false, draws := [true] } : State).draws = true :: [] ∧
      ({ s with pfirst := false, draws := [false] } : State).draws = false :: [] ∧ s.draws = [] := by decide

/-- 31, 32 and 33 bytes, under both commands. -/
theorem witness_AcquirerSamplesByteCount :
    let p := running 0x0001 .aSample
    let a := running 0x0002 .aSample
    p.seq = .aSample ∧ p.command = some .poll ∧ a.command = some .acquire ∧ (fill 31).length < 32 ∧
      (fill 32).length = 32 ∧ 32 < (fill 33).length := by decide

theorem witness_DirectReadFillsFrame :
    let s : State := { running 0x0002 .aRead32 with queue := fill 32 }
    s.seq = .aRead32 ∧ 32 ≤ s.queue.length := by decide

theorem witness_MarkerPlacedAfterResync :
    (running 0x0001 .aMark).seq = .aMark ∧ (running 0x0001 .aMark).command = some .poll ∧
      (running 0x0002 .aMark).command = some .acquire ∧ (fill 29).length < 30 ∧ 30 ≤ (fill 30).length := by decide

theorem witness_PostResyncReadFillsFrame :
    let s : State := { running 0x0002 .aRead30 with queue := fill 30 }
    s.seq = .aRead30 ∧ 30 ≤ s.queue.length := by decide

theorem witness_ScanReadsOneByte :
    let s (q : List Byte) : State := { running 0x0003 .rRead with queue := q }
    (s []).seq = .rRead ∧ (s []).queue = [] ∧ (s [0x42]).queue = 0x42 :: [] ∧ (s [0x4D]).queue = 0x4D :: [] ∧
      (0x4D : Byte) ≠ 0x42 := by decide

theorem witness_ScanPeeksSecondMarker :
    let s (q : List Byte) : State := { running 0x0003 .rPeek with queue := q }
    (s []).seq = .rPeek ∧ (s [0x4D]).queue.head? = some 0x4D ∧ (s []).queue.head? ≠ some 0x4D ∧
      (s [0x42]).queue.head? ≠ some 0x4D := by decide

theorem witness_ScanTakesSecondMarker :
    let s (d : Word) : State := { running d .rTake2 with queue := [0x4D] }
    (s 0x0003).seq = .rTake2 ∧ (s 0x0003).queue = 0x4D :: [] ∧ (s 0x0003).command = some .resync ∧
      (s 0x0001).command = some .poll ∧ (s 0x0002).command = some .acquire := by decide

theorem witness_FailedScanFlushesChannel :
    let s (d : Word) : State := running d .rFlush
    (s 0x0003).seq = .rFlush ∧ (s 0x0003).command = some .resync ∧ (s 0x0002).command = some .acquire ∧
      (s 0x0001).command = some .poll := by decide

/-- Frames for each outcome: W, a swapped marker, a length of 29, and a checksum one too high. -/
theorem witness_DecodeChecksInOrder :
    frameW[0] = 0x42 ∧ frameW[1] = 0x4D ∧ frameW[2].toNat * 256 + frameW[3].toNat = 28 ∧
      frameW[30].toNat * 256 + frameW[31].toNat = ((frameW.toList.take 30).map BitVec.toNat).sum % 65536 ∧
      (frameW.set 1 0x4C)[1] ≠ 0x4D ∧
      (frameW.set 3 0x1D)[2].toNat * 256 + (frameW.set 3 0x1D)[3].toNat ≠ 28 ∧
      frameW[30].toNat * 256 + (frameW.set 31 0xC9)[31].toNat ≠
        (((frameW.set 31 0xC9).toList.take 30).map BitVec.toNat).sum % 65536 ∧
      frameResult (frameW.set 31 0xC9) ≠ .ok := by decide

/-- An unwritten byte at either end, and written frames under the three commands. -/
theorem witness_DecodeStepRoutesResult :
    let s (d : Word) (F : Vector Byte 32) := loaded F (running d .dExec)
    (s 4 frameW).seq = .dExec ∧ State.reset.written[(0 : Fin 32)] = false ∧
      State.reset.written[(31 : Fin 32)] = false ∧ (∀ i : Fin 32, (s 4 frameW).written[i] = true) ∧
      (s 4 frameW).command = some .decode ∧ (s 2 frameW).command = some .acquire ∧
      (s 1 frameW).command = some .poll ∧ frameResult frameW = .ok ∧ frameResult (frameW.set 0 0) ≠ .ok := by decide

/-- The smallest and the largest sum, and a checksum field above any sum. -/
theorem witness_FrameSumBounds :
    frameResult (frameOf 0x00 0x00 0xAB) = .ok ∧ frameResult (frameOf 0xFF 0x1A 0x91) = .ok ∧
      frameResult (frameOf 0xFF 0x1A 0x92) ≠ .headerMismatch ∧
      frameResult (frameOf 0xFF 0x1A 0x92) ≠ .lengthMismatch ∧
      6801 < (frameOf 0xFF 0x1A 0x92)[30].toNat * 256 + (frameOf 0xFF 0x1A 0x92)[31].toNat := by decide

/-- The ends of each range: offsets 0, 1, 2, 3, 4 and 29, with the changed bytes of VD4. -/
theorem witness_SingleByteChangeIsDetected :
    frameResult frameW = .ok ∧ (0x43 : Byte) ≠ frameW[0] ∧ (0x4C : Byte) ≠ frameW[1] ∧
      (0x01 : Byte) ≠ frameW[2] ∧ (0x1D : Byte) ≠ frameW[3] ∧ (0x01 : Byte) ≠ frameW[4] ∧
      (0x01 : Byte) ≠ frameW[29] := by decide

/-- Two words of W exchanged. -/
theorem witness_ReorderedBytesStillDecode :
    let G := (frameW.set 5 0x64).set 7 0x32
    frameResult frameW = .ok ∧ G.toList.take 4 = frameW.toList.take 4 ∧
      G.toList.drop 30 = frameW.toList.drop 30 ∧
      ((G.toList.drop 4).take 26).Perm ((frameW.toList.drop 4).take 26) := by decide

/-- Two states that differ outside FBUF. -/
theorem witness_DecodeDependsOnFrameOnly :
    let s := loaded frameW (running 0x0004 .dExec)
    let s' : State := { s with queue := [1], count := 1, meas := s.meas.set 0 9 }
    s.seq = .dExec ∧ s'.seq = .dExec ∧ s.command = some .decode ∧ s'.command = some .decode ∧
      s.fbuf = s'.fbuf ∧ onNext (engineStep s) (fun _ => true) = true ∧
      onNext (engineStep s') (fun _ => true) = true := by decide

theorem witness_StepKeepsInvariant : waiting.Inv ∧ ∃ t, step waiting = .next t := ⟨inv_waiting, _, rfl⟩

/-- D_EXEC over W after a reset changes MEAS; so does a reset while MEAS is not 0. -/
theorem witness_OnlyDecodeWritesMeas :
    let s := loaded frameW (running 0x0004 .dExec)
    onNext (step s) (fun t => t.meas != s.meas) = true := by decide

/-- A step that changes CMD and one that changes RESULT. -/
theorem witness_CmdHoldsLastAcceptedWord :
    let s : State := { State.reset with turns := [.host (encode .poll)] }
    let u : State := { waiting with turns := [.host (encode .ackError)] }
    (s.Inv ∧ (∃ t, step s = .next t ∧ t.cmd ≠ s.cmd) ∧ ∀ r, nextTurn s ≠ .reset r) ∧
      (u.Inv ∧ (∃ t, step u = .next t ∧ t.result ≠ u.result) ∧ ∀ r, nextTurn u ≠ .reset r) :=
  ⟨⟨inv_withTurns inv_reset _, ⟨_, rfl, by decide⟩, fun _ h => by cases h⟩,
    inv_withTurns inv_waiting _, ⟨_, rfl, by decide⟩, fun _ h => by cases h⟩

theorem witness_RegistryOnlyGrowsUntilReset :
    State.reset.Inv ∧ (∃ t, step State.reset = .next t) ∧ (∀ r, nextTurn State.reset ≠ .reset r) :=
  ⟨inv_reset, ⟨_, rfl⟩, fun _ h => by cases h⟩

theorem witness_OnlyPollWritesPollstAndRetry :
    let s : State := { State.reset with turns := [.host (encode .poll)] }
    s.Inv ∧ (∃ t, step s = .next t ∧ (t.pollst ≠ s.pollst ∨ t.retry ≠ s.retry)) ∧
      (∀ r, nextTurn s ≠ .reset r) :=
  ⟨inv_withTurns inv_reset _, ⟨_, rfl, .inl (by decide)⟩, fun _ h => by cases h⟩

/-- A turn of each agent. -/
theorem witness_ChannelMovesInOrder :
    let s (t : Turn) : State := { State.reset with turns := [t] }
    nextTurn (s .engine) = .engine ∧ nextTurn (s (.producer 0x42)) = .producer 0x42 ∧
      nextTurn (s (.host 0x0010000)) = .host 0x0010000 ∧ nextTurn (s (.reset 3)) = .reset 3 ∧
      onNext (step (s (.producer 0x42))) (fun t => t.queue == [0x42]) = true := by decide

/-- The last free place of a channel, and a full one. -/
theorem witness_ChannelMovesInOrder_full :
    let s (n : Nat) : State := { State.powerOn 10 2 with queue := fill n, turns := [.producer 0x42] }
    nextTurn (s 1) = .producer 0x42 ∧ (s 1).queue.length < (s 1).chanCap ∧
      onNext (step (s 1)) (fun t => t.queue == [0x11, 0x42]) = true ∧
      nextTurn (s 2) = .producer 0x42 ∧ ¬ (s 2).queue.length < (s 2).chanCap ∧
      onNext (step (s 2)) (fun t => t.queue == fill 2) = true := by decide

theorem witness_ResetSignalSetsEveryRegister :
    let s : State := { waiting with turns := [.reset 12] }
    s.refused = false ∧ nextTurn s = .reset 12 := by decide

/-- An ACK, which ends the notification, and a read, which does not. -/
theorem witness_PendingNotificationHoldsStill :
    let s (w : Hbt) : State := { waiting with turns := [.host w] }
    ((s 0x1040001).Inv ∧ (s 0x1040001).seq = .nWait ∧ (∃ t, step (s 0x1040001) = .next t) ∧
        ∀ r, nextTurn (s 0x1040001) ≠ .reset r) ∧
      ((s 0x0400000).Inv ∧ (∃ t, step (s 0x0400000) = .next t ∧ t.seq = .nWait) ∧
        ∀ r, nextTurn (s 0x0400000) ≠ .reset r) :=
  ⟨⟨inv_withTurns inv_waiting _, rfl, ⟨_, rfl⟩, fun _ h => by cases h⟩,
    inv_withTurns inv_waiting _, ⟨_, rfl, rfl⟩, fun _ h => by cases h⟩

/-- A refused state, a refusal, a fault of the host, a fault of the engine, and a fault set of one reason. -/
theorem witness_RunKeepsItsMarks :
    let h : State := { State.reset with turns := [.host 0x0200000] }
    let e : State := { loaded frameW (running 0x0004 .dExec) with
      written := (Vector.replicate 32 true).set 7 false }
    ({ State.reset with refused := true } : State).refused = true ∧
      refusedWith (step { State.reset with turns := [.host 0x1040001] }) .noPendingNotification = true ∧
      (nextTurn h = .host 0x0200000 ∧ faultedWith (step h) (.unwrittenFrameByte 0) = true) ∧
      (nextTurn e = .engine ∧ faultedWith (step e) (.unwrittenFrameByte 7) = true) ∧
      [Fault.unwrittenFrameByte 0].Nodup := by decide

/-- A halted host, and a halted engine whose turn is listed and one whose turn comes by default. -/
theorem witness_FaultedAgentTakesNoStep :
    let h : State := { State.reset with hostHalted := true, turns := [.host 0x0010000] }
    let e : State := { polling [] with engineHalted := true, turns := [.engine] }
    let d : State := { polling [] with engineHalted := true }
    (h.refused = false ∧ h.hostHalted = true ∧ nextTurn h = .host 0x0010000 ∧ h.turns = .host 0x0010000 :: []) ∧
      (e.refused = false ∧ e.engineHalted = true ∧ nextTurn e = .engine ∧ e.turns = .engine :: []) ∧
      (d.refused = false ∧ d.engineHalted = true ∧ nextTurn d = .engine ∧ d.turns = [] ∧ d.later = .engine) := by
  decide

theorem witness_FaultsOnlyOnUnwrittenFrameByte :
    faultedWith (step { State.reset with turns := [.host 0x03F0000] }) (.unwrittenFrameByte 31) = true ∧
      faultedWith (step { loaded frameW (running 0x0004 .dExec) with
        written := (Vector.replicate 32 true).set 0 false }) (.unwrittenFrameByte 0) = true := by decide

theorem witness_CommandEndsWithItsOwnResult :
    let s : State := { waiting with turns := [.host (encode .ackError)] }
    s.Inv ∧ s.busy = true ∧ (∃ t, step s = .next t ∧ t.busy = false) ∧ (∀ r, nextTurn s ≠ .reset r) :=
  ⟨inv_withTurns inv_waiting _, rfl, ⟨_, rfl, rfl⟩, fun _ h => by cases h⟩

/-- VS1's channel, and one without a marker pair. -/
theorem witness_ResyncStopsBehindFirstMarker :
    let s : State := { State.reset with queue := [0xFF, 0x42, 0x4D, 0x00], turns := [.host (encode .resync)] }
    s.refused = false ∧ s.hostHalted = false ∧ s.engineHalted = false ∧ s.busy = false ∧
      s.turns = [.host (encode .resync)] ∧ s.later = .engine ∧ afterMarker s.queue = some [0x00] ∧
      afterMarker [0x4D, 0x42] = none := by decide

/-- A whole frame, and the three failures of the acquirer. -/
theorem witness_AcquireReadsOneFrame :
    let s : State := { State.reset with queue := frameW.toList, turns := [.host (encode .acquire)] }
    s.refused = false ∧ s.hostHalted = false ∧ s.engineHalted = false ∧ s.busy = false ∧
      s.turns = [.host (encode .acquire)] ∧ s.later = .engine ∧ (acquisition s.queue).2 = [] ∧
      (acquisition (fill 31)).2 = fill 31 ∧ (acquisition (fill 33)).2 = [] ∧
      (acquisition (fill 20 ++ [0x42, 0x4D] ++ fill 11)).2 = fill 11 := by decide

/-- A scan that meets two more bytes of the producer's between its own steps, under RESYNC and under POLL. -/
theorem witness_ScanEndsAfterFiniteFeed :
    let s (d : Word) : State := { running d .rRead with
      queue := [0x11], turns := [.producer 0x42, .engine, .producer 0x4D] }
    (s 0x0003).refused = false ∧ (s 0x0003).engineHalted = false ∧ (s 0x0003).seq = .rRead ∧
      (∀ t ∈ (s 0x0003).turns, t ∈ [Turn.engine, .producer 0x42, .producer 0x4D]) ∧
      (s 0x0003).later = .engine ∧ (s 0x0003).command = some .resync ∧ (s 0x0001).seq = .rRead := by decide

/-- A scan fed one byte 0x11 each time, and a poll whose notification nobody answers. -/
theorem witness_TwoRunsNeedNotEnd :
    let s : State := { running 0x0003 .rRead with later := .again [.producer 0x11, .engine] }
    (s.refused = false ∧ s.engineHalted = false ∧ s.seq = .rRead ∧ s.queue = [] ∧ 0 < s.chanCap ∧
        (0x11 : Byte) ≠ 0x42 ∧ s.turns = [] ∧ s.later = .again [.producer 0x11, .engine]) ∧
      (waiting.refused = false ∧ waiting.seq = .nWait ∧ waiting.turns = [] ∧ waiting.later = .engine) := by decide

/-- A reset machine whose first two draws are false. -/
def shortPoll : State := { State.reset with turns := [.host (encode .poll)], draws := [false, false] }

theorem inv_shortPoll : shortPoll.Inv := by
  constructor
  case result_idle => exact fun _ => .inl ⟨rfl, rfl⟩
  all_goals decide

theorem witness_PollOnShortChannelTimesOut :
    shortPoll.Inv ∧ shortPoll.refused = false ∧ shortPoll.hostHalted = false ∧
      shortPoll.engineHalted = false ∧ shortPoll.busy = false ∧
      shortPoll.turns = [.host (encode .poll)] ∧ shortPoll.later = .engine ∧ shortPoll.queue.length < 32 ∧
      shortPoll.draws = false :: false :: [] :=
  ⟨inv_shortPoll, rfl, rfl, rfl, rfl, rfl, rfl, by decide, rfl⟩

/-- One observer, handle 1. -/
def oneObserver : State := { State.reset with count := 1, obs := State.reset.obs.set 0 0x01 }

theorem inv_oneObserver : oneObserver.Inv := by
  constructor
  case result_idle => exact fun _ => .inl ⟨rfl, rfl⟩
  all_goals decide

theorem witness_NotifyDeliversSlotsInOrder :
    let s : State := { oneObserver with
      turns := .host (encode .notify) ::
        (List.replicate 1 [Turn.engine, .host (encode .ackDone)]).flatten ++ [.engine] }
    s.Inv ∧ s.refused = false ∧ s.hostHalted = false ∧ s.engineHalted = false ∧ s.busy = false ∧
      s.count.toNat = 1 :=
  ⟨inv_withTurns inv_oneObserver _, rfl, rfl, rfl, rfl, rfl⟩

/-- W in a channel of 64 bytes, and one observer. -/
def oneFrame : State := { oneObserver with queue := frameW.toList }

theorem inv_oneFrame : oneFrame.Inv := by
  constructor
  case result_idle => exact fun _ => .inl ⟨rfl, rfl⟩
  all_goals decide

theorem witness_PollOnOneGoodFrameSucceeds :
    let s : State := { oneFrame with
      turns := .host (encode .poll) :: List.replicate 4 .engine ++
        (List.replicate 1 [Turn.engine, .host (encode .ackDone)]).flatten ++ [.engine] }
    s.Inv ∧ s.refused = false ∧ s.hostHalted = false ∧ s.engineHalted = false ∧ s.busy = false ∧
      s.queue = frameW.toList ∧ frameResult frameW = .ok ∧ s.count.toNat = 1 :=
  ⟨inv_withTurns inv_oneFrame _, rfl, rfl, rfl, rfl, rfl, by decide, rfl⟩

theorem witness_EngineStepOfAcquisitionIsSafe :
    let s := polling (fill 1)
    s.Inv ∧ s.refused = false ∧ nextTurn s = .engine ∧ s.command ≠ some .decode :=
  ⟨inv_polling, rfl, rfl, by decide⟩

end Sys2Proof.Tests
end

section
/-! The encoding of the host's transactions (R71 to R77): the opcode map over every CMD word, the two ACK words, and the
order in which one host step is decoded. -/

namespace Sys2Proof.Encoding

open Machine Laws

/-! ### CMD words -/

/-- An instruction names its command and, where ARG is legal, its ARG (R75). -/
theorem commandInstr_inj {c c' : Command} {h h' : Byte} (hc : c = .register ∨ h = 0#8)
    (hc' : c' = .register ∨ h' = 0#8) (e : commandInstr c h = commandInstr c' h') : c = c' ∧ h = h' := by
  cases c <;> cases c' <;> simp_all [commandInstr]

/-- A CMD word is accepted as a command with a legal ARG exactly when it is assembled from the two (R72, R75). -/
theorem decodeCmd_eq_ok_commandInstr {d : Word} {c : Command} {h : Byte} (hc : c = .register ∨ h = 0#8) :
    decodeCmd d = .ok (commandInstr c h) ↔ d = mkCmd h (commandOp c) := by
  refine ⟨fun hd => ?_, fun e => e ▸ RoundTrip.decodeCmd_mkCmd c h hc⟩
  rw [decodeCmd] at hd
  rcases hck : checkCmd d with e | c'
  · simp [hck] at hd
  · obtain ⟨hop, hrsv, harg⟩ := checkCmd_eq_ok.1 hck
    obtain ⟨rfl, rfl⟩ := commandInstr_inj harg hc (by simpa [hck] using hd)
    rw [← hop, mkCmd_fields d hrsv]

/-- The low byte of a word as a number (R18). -/
theorem and_00FF_toNat (d : Word) : (d &&& 0x00FF).toNat = d.toNat % 256 := by
  rw [BitVec.toNat_and]
  exact Nat.and_two_pow_sub_one_eq_mod d.toNat 8

/-- The words of REGISTER h: 0x0005 under the mask 0x00FF, and h above it (R74, R75). -/
theorem eq_mkCmd_register_iff {d : Word} {h : Byte} :
    d = mkCmd h (commandOp .register) ↔ d &&& 0x00FF = 0x0005 ∧ h.toNat = d.toNat / 256 := by
  have hop : (commandOp .register).toNat = 5 := rfl
  have h5 : (0x0005 : Word).toNat = 5 := rfl
  rw [← BitVec.toNat_inj, mkCmd_toNat, ← BitVec.toNat_inj, and_00FF_toNat, hop, h5]
  omega

/-- The reserved OP values (R75). -/
theorem commandOf_eq_none {op : BitVec 4} : commandOf op = none ↔ op.toNat = 0 ∨ 7 ≤ op.toNat := by
  revert op; decide

/-- A CMD word with a reserved OP is rejected for its OP, whatever its other fields hold (R77). -/
theorem decodeCmd_of_commandOf_none {d : Word} (h : commandOf (cmdOp d) = none) :
    decodeCmd d = .reject .reservedOpcode := by
  simp [decodeCmd, checkCmd, h]

/-- Settles O2: an accepted CMD word is the assembly of its command and ARG, so each row's words are read off the
assembly, and a reserved OP is refused before RSV and ARG are looked at. -/
theorem cmdWordsMatchOpcodeMap : Obligations.CmdWordsMatchOpcodeMap := by
  intro d
  have row (c : Command) : decodeCmd d = .ok (commandInstr c 0#8) ↔ d = mkCmd 0#8 (commandOp c) :=
    decodeCmd_eq_ok_commandInstr (.inr rfl)
  refine ⟨row .poll, row .acquire, row .resync, row .decode, fun h => ?_, row .notify, fun h => ?_⟩
  · exact (decodeCmd_eq_ok_commandInstr (c := .register) (.inl rfl)).trans eq_mkCmd_register_iff
  · exact decodeCmd_of_commandOf_none (commandOf_eq_none.2 (by rwa [cmdOp_toNat]))

/-! ### ACK words -/

/-- Settles O3, by the three cases of an ACK word: DONE, ERROR, and every other word. -/
theorem ackWordsAreDoneAndError : Obligations.AckWordsAreDoneAndError := by
  intro d
  by_cases h1 : d = 1#16
  · subst h1; decide
  · by_cases h2 : d = 2#16
    · subst h2; decide
    · simp [decodeAck, h1, h2]

/-! ### One host step -/

/-- A read that carries data is rejected before its address is looked at (R76, R77). -/
theorem decodeHbt_read_data (a : BusAddr) {d : Word} (hd : d ≠ 0) :
    decodeHbt (mkHbt false a d) = .reject .malformedTransaction := by
  rw [decodeHbt, hbtWe_mkHbt, hbtData_mkHbt, if_pos ⟨rfl, hd⟩]

/-- Any other transaction at an unmapped address is rejected for its address (R76, R77). -/
theorem decodeHbt_unmapped {we : Bool} {a : BusAddr} {d : Word} (ha : regAt a = none)
    (hd : we = false → d = 0) : decodeHbt (mkHbt we a d) = .reject .unmappedAddress := by
  rw [decodeHbt, hbtWe_mkHbt, hbtData_mkHbt, hbtAddr_mkHbt, if_neg fun h => h.2 (hd h.1), ha]

/-- The addresses a plain write may name: mapped, and neither CMD nor ACK (R76 points 4 to 6). -/
theorem wfWrite_iff {a : BusAddr} : Instr.wfWrite a = true ↔ regAt a ≠ none ∧ a ≠ 0x00 ∧ a ≠ 0x04 := by
  revert a; decide

/-- Settles O4, point by point of R76; the plain read and the plain write are the round trips of RD and WR. -/
theorem hostStepDecodingOrder : Obligations.HostStepDecodingOrder := by
  intro a d
  refine ⟨decodeHbt_read_data a, fun ha => ⟨?_, ?_⟩, RoundTrip.decodeHbt_cmd d,
    RoundTrip.decodeHbt_ack d, fun ha => ?_, fun ha hcmd hack => ?_⟩
  · exact decodeHbt_unmapped ha fun _ => rfl
  · exact decodeHbt_unmapped ha nofun
  · exact RoundTrip.rd a (Option.isSome_iff_ne_none.2 ha)
  · exact RoundTrip.wr a d (wfWrite_iff.2 ⟨ha, hcmd, hack⟩)

end Sys2Proof.Encoding
end

section
/-! The host's access to the registers (R84 to R88): what a write to each kind of register answers, what a write of any
word to CMD answers, and that nothing but an accepted write to CMD starts a command. -/

namespace Sys2Proof.HostAccess

open Machine Laws Encoding

/-! ### Writes by register -/

/-- A write to CMD is Issue (R84). -/
theorem exec_wr_cmd (d : Word) (s : State) : exec (.wr 0x00 d) s = issue d s := rfl

/-- A write to FBUF[i] is WriteFrameByte (R84). -/
theorem exec_wr_fbuf (i : Fin 32) (d : Word) (s : State) :
    exec (.wr (regAddr (.fbuf i)) d) s = writeFrameByte i d s := by
  rw [exec, execWr, regAt_regAddr]

/-- WriteFrameByte while BUSY = 1 (R86). -/
theorem writeFrameByte_of_busy {s : State} (hb : s.busy = true) (i : Fin 32) (d : Word) :
    writeFrameByte i d s = .refused .busyWrite := if_pos hb

/-- WriteFrameByte while BUSY = 0 (R87). -/
theorem writeFrameByte_of_idle {s : State} (hb : s.busy = false) (i : Fin 32) (d : Word) :
    writeFrameByte i d s = .next (setFrameByte i.val (lowByte d) s) := if_neg (by simp [hb])

/-- DATA[7:0] as a number (R37). -/
theorem lowByte_toNat (d : Word) : (lowByte d).toNat = d.toNat % 256 := by
  rw [lowByte, BitVec.extractLsb'_toNat, Nat.shiftRight_zero]

/-- The byte that is set holds the new value and is marked written (R87). -/
theorem setFrameByte_getElem_self (i : Fin 32) (b : Byte) (s : State) :
    (setFrameByte i.val b s).fbuf[i] = b ∧ (setFrameByte i.val b s).written[i] = true := by
  simp

/-- Every other byte keeps its value and its mark (R87). -/
theorem setFrameByte_getElem_of_ne {i j : Fin 32} (h : j ≠ i) (b : Byte) (s : State) :
    (setFrameByte i.val b s).fbuf[j] = s.fbuf[j] ∧ (setFrameByte i.val b s).written[j] = s.written[j] := by
  have hv : i.val ≠ j.val := fun e => h (Fin.ext e.symm)
  simp [hv]

/-- Settles O16: a write to FBUF is WriteFrameByte, and the byte it sets is the only one it changes. -/
theorem wrFrameByteStoresLowByte : Obligations.WrFrameByteStoresLowByte := by
  intro s i d
  have hwr : exec (.wr (BitVec.ofNat 8 (0x20 + i.val)) d) s = writeFrameByte i d s := exec_wr_fbuf i d s
  rw [hwr]
  refine ⟨fun hb => writeFrameByte_of_busy hb i d, fun hb => ⟨_, writeFrameByte_of_idle hb i d, ?_⟩⟩
  obtain ⟨hbyte, hmark⟩ := setFrameByte_getElem_self i (lowByte d) s
  exact ⟨by rw [hbyte, lowByte_toNat], hmark, fun j hj => setFrameByte_getElem_of_ne hj (lowByte d) s, rfl⟩

/-- Settles O15, register by register: each read-only kind has its own accepting branch of BusWrite. -/
theorem wrReadOnlyChangesNothing : Obligations.WrReadOnlyChangesNothing := by
  intro s d r hr
  rw [exec, execWr, regAt_regAddr]
  rcases hr with rfl | rfl | rfl | ⟨j, rfl⟩ | ⟨k, rfl⟩ <;> rfl

/-! ### Issue -/

/-- A reserved OP is refused before RSV and ARG are looked at (R88). -/
theorem checkCmd_of_reserved_op {d : Word} (h : commandOf (cmdOp d) = none) :
    checkCmd d = .error .reservedOpcode := by
  rw [checkCmd, h]

/-- A legal OP with a bit set in RSV, or with an ARG that its command does not take (R88). -/
theorem checkCmd_of_reserved_field {d : Word} {c : Command} (h : commandOf (cmdOp d) = some c)
    (hf : cmdRsv d ≠ 0#4 ∨ c ≠ .register ∧ cmdArg d ≠ 0#8) : checkCmd d = .error .reservedField := by
  rw [checkCmd, h]
  rcases hf with hr | ha
  · exact if_pos hr
  · exact (congrArg _ (if_pos ha)).trans (ite_self _)

/-- The three answers of the tests of Issue (R88). -/
theorem checkCmd_cases (d : Word) :
    checkCmd d = .error .reservedOpcode ∨ checkCmd d = .error .reservedField ∨ ∃ c, checkCmd d = .ok c := by
  rcases hop : commandOf (cmdOp d) with _ | c
  · exact .inl (checkCmd_of_reserved_op hop)
  · by_cases hf : cmdRsv d ≠ 0#4 ∨ c ≠ .register ∧ cmdArg d ≠ 0#8
    · exact .inr (.inl (checkCmd_of_reserved_field hop hf))
    · exact .inr (.inr ⟨c, checkCmd_eq_ok.2 ⟨commandOf_eq_some.1 hop, by tauto⟩⟩)

/-- Issue while BUSY = 1 is refused for BUSY, whatever the word (R86, R88). -/
theorem issue_of_busy {s : State} (hb : s.busy = true) (d : Word) : issue d s = .refused .busyWrite := by
  rcases checkCmd_cases d with hc | hc | ⟨c, hc⟩
  · simp [issue, hc, rejection, hb]
  · simp [issue, hc, rejection, hb]
  · simp [issue, hc, accept, hb]

/-- Issue of a word with a reserved OP while BUSY = 0 (R88). -/
theorem issue_of_reserved_op {s : State} (hb : s.busy = false) {d : Word}
    (h : checkCmd d = .error .reservedOpcode) : issue d s = .refused .reservedOpcode := by
  simp [issue, h, rejection, hb]

/-- Issue of a word with a reserved field while BUSY = 0 (R88). -/
theorem issue_of_reserved_field {s : State} (hb : s.busy = false) {d : Word}
    (h : checkCmd d = .error .reservedField) : issue d s = .refused .reservedField := by
  simp [issue, h, rejection, hb]

/-- Issue of a legal word accepts it with its command's entry (R88). -/
theorem issue_of_ok {d : Word} {c : Command} (h : checkCmd d = .ok c) (s : State) :
    issue d s = accept d (entryOf c) s := by
  rw [issue, h]

/-- A decoded command runs as the acceptance of its word (R88). -/
theorem exec_commandInstr (c : Command) {h : Byte} (hc : c = .register ∨ h = 0#8) (s : State) :
    exec (commandInstr c h) s = accept (mkCmd h (commandOp c)) (entryOf c) s := by
  cases c with
  | register => rfl
  | _ => obtain rfl := hc.resolve_left nofun; rfl

/-- A legal word is the word of its command and its ARG. -/
theorem mkCmd_of_checkCmd {d : Word} {c : Command} (h : checkCmd d = .ok c) :
    mkCmd (cmdArg d) (commandOp c) = d := by
  obtain ⟨hop, hrsv, -⟩ := checkCmd_eq_ok.1 h
  rw [← hop, mkCmd_fields d hrsv]

/-- A legal CMD word decodes to an instruction that does what Issue does with the word (R84, R88). -/
theorem exec_commandInstr_cmdArg {d : Word} {c : Command} (h : checkCmd d = .ok c) (s : State) :
    exec (commandInstr c (cmdArg d)) s = accept d (entryOf c) s := by
  obtain ⟨-, -, harg⟩ := checkCmd_eq_ok.1 h
  rw [exec_commandInstr c harg, mkCmd_of_checkCmd h]

/-- Settles O17: FBUF writes and Issue test BUSY first, and each command is an accepted word. -/
theorem busyRefusesCommandAndFrameWrites : Obligations.BusyRefusesCommandAndFrameWrites := by
  intro s hb
  have refuse (c : Command) {h : Byte} (hc : c = .register ∨ h = 0#8) :
      exec (commandInstr c h) s = .refused .busyWrite :=
    (exec_commandInstr c hc s).trans (if_pos hb)
  exact ⟨fun d => (exec_wr_cmd d s).trans (issue_of_busy hb d),
    fun i d => (exec_wr_fbuf i d s).trans (writeFrameByte_of_busy hb i d),
    refuse .poll (.inr rfl), refuse .acquire (.inr rfl), refuse .resync (.inr rfl),
    refuse .decode (.inr rfl), fun _ => refuse .register (.inl rfl), refuse .notify (.inr rfl)⟩

/-! ### The state a command starts in -/

/-- The engine step that a command begins with (R91, R100, R109, R119, R133, R137). -/
def firstSeq : Command → Seq
  | .poll => .pHead
  | .acquire => .aSample
  | .resync => .rRead
  | .decode => .dExec
  | .register => .gExec
  | .notify => .nNext

@[simp] theorem entryOf_cmd (c : Command) (s : State) : (entryOf c s).cmd = s.cmd := by cases c <;> rfl
@[simp] theorem entryOf_result (c : Command) (s : State) : (entryOf c s).result = s.result := by cases c <;> rfl
@[simp] theorem entryOf_busy (c : Command) (s : State) : (entryOf c s).busy = s.busy := by cases c <;> rfl
@[simp] theorem entryOf_seq (c : Command) (s : State) : (entryOf c s).seq = firstSeq c := by cases c <;> rfl

/-- What an accepted word leaves in CMD, STATUS and SEQ (R88). -/
theorem accept_entry_next {s : State} (hb : s.busy = false) (d : Word) (c : Command) :
    ∃ t, accept d (entryOf c) s = .next t ∧ t.cmd = d ∧ t.result = .none ∧ t.busy = true ∧ t.seq = firstSeq c :=
  ⟨_, execCommand_next hb, entryOf_cmd .., entryOf_result .., entryOf_busy .., entryOf_seq ..⟩

/-! ### The engine starts no command -/

theorem acqFail_busy_false (r : ResultCode) {s : State} (hb : s.busy = false) : (acqFail r s).busy = false := by
  rcases acqFail_cases r s with ⟨-, h⟩ | ⟨-, h⟩
  · rw [h]; exact hb
  · rw [h]; rfl

theorem routeDecode_busy_false (r : ResultCode) {s : State} (hb : s.busy = false) : (routeDecode r s).busy = false := by
  unfold routeDecode
  split
  · split <;> exact hb
  · rfl

/-- An engine step never sets BUSY: while BUSY = 0 it stays 0 (R88, R89). -/
theorem engineStep_busy_false {s t : State} (h : engineStep s = .next t) (hb : s.busy = false) : t.busy = false := by
  unfold engineStep at h
  split at h
  case h_12 =>
    unfold stepDExec at h
    split at h <;> cases h
    exact routeDecode_busy_false _ hb
  all_goals cases h
  case h_1 => exact hb
  case h_2 => unfold stepGExec; split <;> rfl
  case h_3 =>
    unfold stepPHead
    split
    · rfl
    · split
      · exact hb
      · split
        · rfl
        · exact hb
  case h_4 =>
    unfold stepASample
    split
    · exact acqFail_busy_false _ hb
    · split <;> exact hb
  case h_5 => simpa [stepARead32] using hb
  case h_6 =>
    unfold stepRRead
    split
    · exact hb
    · split <;> exact hb
  case h_7 => unfold stepRPeek; split <;> exact hb
  case h_8 =>
    unfold stepRTake2
    split
    · rfl
    · exact hb
  case h_9 =>
    unfold stepRFlush
    split
    · rfl
    · exact acqFail_busy_false _ hb
  case h_10 =>
    unfold stepAMark
    split
    · exact acqFail_busy_false _ hb
    · exact hb
  case h_11 => simpa [stepARead30] using hb
  case h_13 =>
    unfold stepNNext
    split
    · split <;> rfl
    · exact hb
  case h_14 => exact hb

/-! ### Only a write to CMD starts a command -/

/-- A CMD word that decodes is a legal one (R76 point 4). -/
theorem decodeCmd_eq_ok {d : Word} {i : Instr} (h : decodeCmd d = .ok i) :
    ∃ c, checkCmd d = .ok c ∧ i = commandInstr c (cmdArg d) := by
  unfold decodeCmd at h
  split at h
  · cases h
  · next c hc => cases h; exact ⟨c, hc, rfl⟩

/-- What a transaction that decodes is: a legal CMD write, an ACK, a read, or a write to another register (R76). -/
theorem decodeHbt_eq_ok {w : Hbt} {i : Instr} (h : decodeHbt w = .ok i) :
    (∃ d c, w = mkHbt true 0x00 d ∧ checkCmd d = .ok c ∧ i = commandInstr c (cmdArg d)) ∨
      i = .ackDone ∨ i = .ackError ∨ (∃ a, i = .rd a) ∨ ∃ a d, i = .wr a d ∧ regAt a ≠ some .cmd := by
  obtain ⟨we, a, d, rfl⟩ : ∃ we a d, mkHbt we a d = w := ⟨_, _, _, mkHbt_fields w⟩
  rw [decodeHbt, hbtWe_mkHbt, hbtAddr_mkHbt, hbtData_mkHbt] at h
  split at h
  · cases h
  split at h
  · cases h
  next r hr =>
  cases we with
  | false => cases h; exact .inr (.inr (.inr (.inl ⟨a, rfl⟩)))
  | true =>
    rw [if_neg nofun] at h
    split at h
    · obtain ⟨c, hc, hi⟩ := decodeCmd_eq_ok h
      exact .inl ⟨d, c, by rw [regAt_eq_some.1 hr]; rfl, hc, hi⟩
    · unfold decodeAck at h
      split at h
      · cases h; exact .inr (.inl rfl)
      · split at h
        · cases h; exact .inr (.inr (.inl rfl))
        · cases h
    · next hcmd _ =>
      cases h
      exact .inr (.inr (.inr (.inr ⟨a, d, rfl, fun e => hcmd (Option.some.inj (hr.symm.trans e))⟩)))

/-- A decoded instruction that sets BUSY is the acceptance of the word its transaction writes to CMD (R88). -/
theorem exec_starts_command {w : Hbt} {i : Instr} {s t : State} (hd : decodeHbt w = .ok i) (h : exec i s = .next t)
    (hs : s.busy = false) (ht : t.busy = true) : ∃ d, w = mkHbt true 0x00 d ∧ t.cmd = d := by
  have stays {u : State} (e : t = u) (hu : u.busy = false) : False := by
    rw [e, hu] at ht; cases ht
  rcases decodeHbt_eq_ok hd with ⟨d, c, hw, hc, rfl⟩ | rfl | rfl | ⟨a, rfl⟩ | ⟨a, d, rfl, ha⟩
  · rw [exec_commandInstr_cmdArg hc] at h
    exact ⟨d, hw, by rw [(accept_eq_next.1 h).2, entryOf_cmd]⟩
  · exact (stays (execAckDone_next h).2 hs).elim
  · exact (stays (execAckError_next h).2 rfl).elim
  · obtain ⟨r, -, -, e⟩ := execRd_next h
    exact (stays e hs).elim
  · rcases execWr_next h with ⟨c, hr, -⟩ | ⟨-, -, ⟨-, e⟩ | ⟨-, e⟩⟩ | ⟨j, -, -, e⟩ | e
    · exact (ha hr).elim
    · exact (stays e hs).elim
    · exact (stays e rfl).elim
    · exact (stays e hs).elim
    · exact (stays e hs).elim

/-- The producer leaves BUSY as it is (R54). -/
@[simp] theorem chAppend_busy (b : Byte) (s : State) : (chAppend b s).busy = s.busy := by
  unfold chAppend; split <;> rfl

/-- A step that sets BUSY is a host's write to CMD, and CMD then holds its word (R88). -/
theorem step_starts_command {s t : State} (h : step s = .next t) (hs : s.busy = false) (ht : t.busy = true) :
    ∃ d, nextTurn s = .host (mkHbt true 0x00 d) ∧ t.cmd = d := by
  have hu : (spendTurn s).busy = false := (spendTurn_busy s).trans hs
  obtain ⟨-, h⟩ := step_next h
  rcases h with ⟨-, -, rfl⟩ | ⟨-, -, h⟩ | ⟨w, -, -, rfl⟩ | ⟨w, i, hn, -, hd, h⟩ | ⟨b, -, rfl⟩ | ⟨r, -, rfl⟩
  · simp [hs] at ht
  · simp [engineStep_busy_false h hu] at ht
  · simp [hs] at ht
  · obtain ⟨d, rfl, hcmd⟩ := exec_starts_command hd h hu ht
    exact ⟨d, hn, hcmd⟩
  · simp [hs] at ht
  · simp at ht

/-! ### The words of Issue by number -/

/-- OP 1 to 6 names a command (R75). -/
theorem exists_commandOf {d : Word} (h1 : 1 ≤ d.toNat % 16) (h6 : d.toNat % 16 ≤ 6) :
    ∃ c, commandOf (cmdOp d) = some c := by
  refine Option.ne_none_iff_exists'.1 fun h => ?_
  rw [commandOf_eq_none, cmdOp_toNat] at h
  omega

/-- The command an OP number names (R75). -/
theorem op_toNat_eq_iff {d : Word} {c c' : Command} (h : commandOf (cmdOp d) = some c) :
    d.toNat % 16 = (commandOp c').toNat ↔ c' = c := by
  rw [← cmdOp_toNat, BitVec.toNat_inj, ← commandOf_eq_some, h, Option.some.injEq, eq_comm]

theorem cmdRsv_eq_zero_iff {d : Word} : cmdRsv d = 0#4 ↔ d.toNat / 16 % 16 = 0 := by
  rw [← BitVec.toNat_inj, cmdRsv_toNat]; rfl

theorem cmdArg_eq_zero_iff {d : Word} : cmdArg d = 0#8 ↔ d.toNat / 256 = 0 := by
  rw [← BitVec.toNat_inj, cmdArg_toNat]; rfl

theorem ofNat_div_eq_cmdArg (d : Word) : BitVec.ofNat 8 (d.toNat / 256) = cmdArg d := by
  rw [← cmdArg_toNat, BitVec.ofNat_toNat, BitVec.setWidth_eq]

/-- Settles O18: only an accepted CMD write sets BUSY, and Issue answers by its tests in their order. -/
theorem issueChecksAndStartsCommand : Obligations.IssueChecksAndStartsCommand := by
  refine ⟨fun s t => step_starts_command, fun s d => ?_⟩
  simp only [exec_wr_cmd]
  refine ⟨fun hb => issue_of_busy hb d, fun hb hop => ?_, fun hb h1 h6 hrsv => ?_,
    fun hb h1 h6 h5 harg => ?_, fun hb h1 h6 hrsv harg => ?_⟩
  · exact issue_of_reserved_op hb (checkCmd_of_reserved_op (commandOf_eq_none.2 (by rwa [cmdOp_toNat])))
  · obtain ⟨c, hc⟩ := exists_commandOf h1 h6
    exact issue_of_reserved_field hb
      (checkCmd_of_reserved_field hc (.inl (mt cmdRsv_eq_zero_iff.1 hrsv)))
  · obtain ⟨c, hc⟩ := exists_commandOf h1 h6
    have hreg : c ≠ .register := fun e => h5 ((op_toNat_eq_iff hc (c' := .register)).2 e.symm)
    exact issue_of_reserved_field hb
      (checkCmd_of_reserved_field hc (.inr ⟨hreg, mt cmdArg_eq_zero_iff.1 harg⟩))
  · obtain ⟨c, hc⟩ := exists_commandOf h1 h6
    have hok : checkCmd d = .ok c := checkCmd_eq_ok.2 ⟨commandOf_eq_some.1 hc, cmdRsv_eq_zero_iff.2 hrsv,
      harg.imp (fun e => ((op_toNat_eq_iff hc (c' := .register)).1 e).symm) cmdArg_eq_zero_iff.2⟩
    obtain ⟨t, ht, hcmd, hres, hbusy, hseq⟩ := accept_entry_next hb d c
    have row (c' : Command) (h : d.toNat % 16 = (commandOp c').toNat) :
        exec (commandInstr c' (cmdArg d)) s = .next t ∧ t.seq = firstSeq c' := by
      obtain rfl := (op_toNat_eq_iff hc).1 h
      exact ⟨(exec_commandInstr_cmdArg hok s).trans ht, hseq⟩
    rw [ofNat_div_eq_cmdArg]
    exact ⟨t, (issue_of_ok hok s).trans ht, hcmd, hres, hbusy, row .poll, row .acquire, row .resync,
      row .decode, row .register, row .notify⟩

end Sys2Proof.HostAccess
end

section
/-! The poll loop's entry (R91): what POLL writes when the block is idle, over the common acceptance of a command (R88). -/

namespace Sys2Proof.Poll

open Machine

/-- POLL is the acceptance of the word 0x0001 with the poll's entry (R88, R91). -/
theorem exec_poll (s : State) : exec .poll s = accept 0x0001 entryPoll s := rfl

/-- The fields that the poll's entry writes, RETRY_INIT as its number (R13, R91). -/
theorem entryPoll_eq (s : State) : entryPoll s =
    { s with retry := 3, pollst := .attempting, pfirst := true, timer := .running, seq := .pHead } := rfl

/-- Settles O19: from idle POLL is accepted, and its entry starts a fresh session in the same step. -/
theorem pollStartsAPollSession : Obligations.PollStartsAPollSession := by
  intro s hb
  rw [exec_poll, execCommand_next hb, entryPoll_eq]

end Sys2Proof.Poll
end

section
/-! The acquirer's steps (R102 to R105): the three cases of the byte count, the marker, and the two bulk reads, which
are one loop that fills the frame buffer from an offset to its end. -/

namespace Sys2Proof.Acquire

open Machine

/-! ### The routing of a failure -/

/-- Under POLL a failed acquisition goes back to the loop head (R101). -/
theorem acqFail_of_poll {s : State} (hc : s.command = some .poll) (r : ResultCode) :
    acqFail r s = { s with seq := .pHead } := if_pos hc

/-- Under ACQUIRE a failed acquisition ends the command with its code (R101). -/
theorem acqFail_of_acquire {s : State} (hc : s.command = some .acquire) (r : ResultCode) :
    acqFail r s = finish r s := if_neg (by simp [hc])

/-! ### The byte count -/

theorem engineStep_aSample {s : State} (hs : s.seq = .aSample) : engineStep s = .next (stepASample s) := by
  rw [engineStep, hs]

/-- Fewer bytes than a frame: the acquisition fails (R102). -/
theorem stepASample_of_lt {s : State} (h : s.queue.length < 32) :
    stepASample s = acqFail .insufficientData s := if_pos h

/-- Exactly a frame: it is read directly (R102). -/
theorem stepASample_of_eq {s : State} (h : s.queue.length = 32) : stepASample s = { s with seq := .aRead32 } :=
  (if_neg h.not_lt).trans (if_pos h)

/-- More bytes than a frame: the channel is resynchronized (R102). -/
theorem stepASample_of_gt {s : State} (h : 32 < s.queue.length) : stepASample s = { s with seq := .rRead } :=
  (if_neg h.not_gt).trans (if_neg h.ne')

/-- Settles O26, by the three cases of the byte count; the short one is an acquirer failure. -/
theorem acquirerSamplesByteCount : Obligations.AcquirerSamplesByteCount := by
  intro s hs
  rw [engineStep_aSample hs]
  refine ⟨fun hlt hc => ?_, fun hlt hc => ?_, fun heq => ?_, fun hgt => ?_⟩
  · rw [stepASample_of_lt hlt, acqFail_of_poll hc]
  · rw [stepASample_of_lt hlt, acqFail_of_acquire hc, finish]
  · rw [stepASample_of_eq heq]
  · rw [stepASample_of_gt hgt]

/-! ### The marker -/

theorem engineStep_aMark {s : State} (hs : s.seq = .aMark) : engineStep s = .next (stepAMark s) := by
  rw [engineStep, hs]

/-- Too few bytes behind the marker: the acquisition fails with the marker in place (R104). -/
theorem stepAMark_of_lt {s : State} (h : s.queue.length < 30) :
    stepAMark s = acqFail .insufficientData (placeMarker s) := if_pos h

/-- Enough bytes behind the marker: the rest of the frame is read (R104). -/
theorem stepAMark_of_ge {s : State} (h : 30 ≤ s.queue.length) :
    stepAMark s = { placeMarker s with seq := .aRead30 } := if_neg h.not_gt

/-- Placing the marker keeps the command that routes a failure (R101, R104). -/
theorem placeMarker_command (s : State) : (placeMarker s).command = s.command := rfl

/-- Settles O28: in each case the state after the step is the marked state with its STATUS and SEQ routed. -/
theorem markerPlacedAfterResync : Obligations.MarkerPlacedAfterResync := by
  intro s hs
  rw [engineStep_aMark hs]
  refine ⟨fun hlt hc => ?_, fun hlt hc => ?_, fun hge => ?_⟩
  · rw [stepAMark_of_lt hlt, acqFail_of_poll ((placeMarker_command s).trans hc), placeMarker_eq]
  · rw [stepAMark_of_lt hlt, acqFail_of_acquire ((placeMarker_command s).trans hc), placeMarker_eq, finish]
  · rw [stepAMark_of_ge hge, placeMarker_eq]

/-! ### The bulk reads -/

/-- A register file that keeps its entries below an offset and holds a list from there to its end. -/
theorem toList_eq_take_append {α : Type} {n off : Nat} {v w : Vector α n} {l : List α} (h : off + l.length = n)
    (hkeep : ∀ j (hj : j < off), w[j] = v[j]) (hnew : ∀ j (hj : j < l.length), w[off + j] = l[j]) :
    w.toList = v.toList.take off ++ l := by
  apply List.ext_getElem
  · simp; omega
  · intro j hj _
    have hj : j < off + l.length := by simpa [h] using hj
    by_cases hlt : j < off
    · rw [List.getElem_append_left (by simp; omega), List.getElem_take, Vector.getElem_toList, Vector.getElem_toList,
        hkeep j hlt]
    · obtain ⟨k, rfl⟩ := Nat.exists_eq_add_of_le (Nat.le_of_not_lt hlt)
      have htake : (v.toList.take off).length = off := by simp; omega
      simp [List.getElem_append_right, htake, hnew k (by omega)]

/-- Storing bytes up to the end of the frame buffer replaces what stands from the offset on (R103, R105). -/
theorem storeFrameBytes_fbuf_toList {off : Nat} {bs : List Byte} (h : off + bs.length = 32) (s : State) :
    (storeFrameBytes off bs s).fbuf.toList = s.fbuf.toList.take off ++ bs := by
  refine toList_eq_take_append h (fun j hj => ?_) (fun j hj => ?_)
  · rw [storeFrameBytes_fbuf_getElem, dif_neg (by omega)]
  · rw [storeFrameBytes_fbuf_getElem, dif_pos (by omega)]
    simp only [Nat.add_sub_cancel_left]

/-- Storing bytes up to the end of the frame buffer marks everything from the offset on (R103, R105). -/
theorem storeFrameBytes_written_toList {off : Nat} {bs : List Byte} (h : off + bs.length = 32) (s : State) :
    (storeFrameBytes off bs s).written.toList = s.written.toList.take off ++ List.replicate bs.length true := by
  refine toList_eq_take_append (by rwa [List.length_replicate]) (fun j hj => ?_) (fun j hj => ?_)
  · rw [storeFrameBytes_written_getElem, if_neg (by omega)]
  · rw [List.length_replicate] at hj
    rw [storeFrameBytes_written_getElem, if_pos (by omega), List.getElem_replicate]

theorem engineStep_aRead32 {s : State} (hs : s.seq = .aRead32) : engineStep s = .next (stepARead32 s) := by
  rw [engineStep, hs]

theorem engineStep_aRead30 {s : State} (hs : s.seq = .aRead30) : engineStep s = .next (stepARead30 s) := by
  rw [engineStep, hs]

/-- Settles O27: the loop runs from offset 0 over the 32 oldest bytes, so it replaces the whole frame buffer. -/
theorem directReadFillsFrame : Obligations.DirectReadFillsFrame := by
  intro s hs hq
  have hend : 0 + (s.queue.take 32).length = 32 := by rw [List.length_take_of_le hq]
  have hqueue : (stepARead32 s).queue = s.queue.drop 32 := congrArg State.queue (stepARead32_eq s)
  refine ⟨_, engineStep_aRead32 hs, ?_, fun i => ?_, hqueue, ?_⟩
  · exact storeFrameBytes_fbuf_toList hend (chReadBytesRest 32 s)
  · have hmark := storeFrameBytes_written_getElem (s.queue.take 32) 0 (chReadBytesRest 32 s) i i.isLt
    exact hmark.trans (if_pos (by omega))
  · rw [hqueue]
    exact stepARead32_eq s

/-- Settles O29: the loop runs from offset 2 over the 30 oldest bytes, so it keeps the two marker bytes and replaces the
rest of the frame buffer. -/
theorem postResyncReadFillsFrame : Obligations.PostResyncReadFillsFrame := by
  intro s hs hq
  have hlen : (s.queue.take 30).length = 30 := List.length_take_of_le hq
  have hend : 2 + (s.queue.take 30).length = 32 := by rw [hlen]
  have hqueue : (stepARead30 s).queue = s.queue.drop 30 := congrArg State.queue (stepARead30_eq s)
  refine ⟨_, engineStep_aRead30 hs, ?_, ?_, hqueue, ?_⟩
  · exact storeFrameBytes_fbuf_toList hend (chReadBytesRest 30 s)
  · have hmark := storeFrameBytes_written_toList hend (chReadBytesRest 30 s)
    rwa [hlen] at hmark
  · rw [hqueue]
    exact stepARead30_eq s

end Sys2Proof.Acquire
end

section
/-! The resynchronizer's steps (R110 to R113): the scan for the marker pair, a byte at a time, and its two ends, the pair
found and the channel run empty. -/

namespace Sys2Proof.Resync

open Machine Acquire

/-! ### The channel -/

/-- A channel with an oldest byte: ch_read() leaves the bytes behind it (R57). -/
theorem chReadRest_of_cons {s : State} {b : Byte} {rest : List Byte} (hq : s.queue = b :: rest) :
    chReadRest s = { s with queue := rest } := by
  rw [chReadRest, hq, List.tail_cons]

/-- A channel with an oldest byte: ch_read() answers it (R57). -/
theorem chRead_of_cons {s : State} {b : Byte} {rest : List Byte} (hq : s.queue = b :: rest) :
    chRead s = some b := by
  rw [chRead, hq, List.head?_cons]

/-- Flushing the channel keeps the command that routes the end of a scan (R59, R113). -/
theorem chFlush_command (s : State) : (chFlush s).command = s.command := rfl

/-! ### The scan step -/

theorem engineStep_rRead {s : State} (hs : s.seq = .rRead) : engineStep s = .next (stepRRead s) := by
  rw [engineStep, hs]

/-- The channel ran empty: the scan fails (R110). -/
theorem stepRRead_of_nil {s : State} (hq : s.queue = []) : stepRRead s = { s with seq := .rFlush } := by
  rw [stepRRead, chRead, hq, List.head?_nil]

/-- A first marker byte is consumed, and the byte behind it is tested next (R110). -/
theorem stepRRead_of_marker {s : State} {rest : List Byte} (hq : s.queue = 0x42 :: rest) :
    stepRRead s = { s with queue := rest, seq := .rPeek } := by
  rw [stepRRead, chRead_of_cons hq, chReadRest_of_cons hq]
  exact if_pos rfl

/-- Any other byte is consumed, and the scan goes on (R110). -/
theorem stepRRead_of_ne {s : State} {b : Byte} {rest : List Byte} (hq : s.queue = b :: rest) (hb : b ≠ 0x42) :
    stepRRead s = { s with queue := rest, seq := .rRead } := by
  rw [stepRRead, chRead_of_cons hq, chReadRest_of_cons hq]
  exact if_neg hb

/-- Settles O30, by the three cases of the channel: empty, a first marker byte, any other byte. -/
theorem scanReadsOneByte : Obligations.ScanReadsOneByte := by
  intro s hs
  rw [engineStep_rRead hs]
  refine ⟨fun hq => ?_, fun rest hq => ?_, fun b rest hq hb => ?_⟩
  · rw [stepRRead_of_nil hq]
  · rw [stepRRead_of_marker hq]
  · rw [stepRRead_of_ne hq hb]

/-! ### The second marker byte -/

theorem engineStep_rPeek {s : State} (hs : s.seq = .rPeek) : engineStep s = .next (stepRPeek s) := by
  rw [engineStep, hs]

/-- The marker pair is complete (R111). -/
theorem stepRPeek_of_marker {s : State} (hq : s.queue.head? = some 0x4D) :
    stepRPeek s = { s with seq := .rTake2 } := if_pos hq

/-- The byte behind the first marker byte, if any, is left for the scan (R111). -/
theorem stepRPeek_of_ne {s : State} (hq : s.queue.head? ≠ some 0x4D) :
    stepRPeek s = { s with seq := .rRead } := if_neg hq

/-- Settles O31, by the two answers of the test. -/
theorem scanPeeksSecondMarker : Obligations.ScanPeeksSecondMarker := by
  intro s hs
  rw [engineStep_rPeek hs]
  exact ⟨fun hq => by rw [stepRPeek_of_marker hq], fun hq => by rw [stepRPeek_of_ne hq]⟩

theorem engineStep_rTake2 {s : State} (hs : s.seq = .rTake2) : engineStep s = .next (stepRTake2 s) := by
  rw [engineStep, hs]

/-- Under RESYNC the found marker pair ends the command (R112). -/
theorem stepRTake2_of_resync {s : State} (hc : s.command = some .resync) :
    stepRTake2 s = finish .ok (chReadRest s) := if_pos hc

/-- Under POLL and ACQUIRE the acquisition goes on behind the marker pair (R112). -/
theorem stepRTake2_of_ne {s : State} (hc : s.command ≠ some .resync) :
    stepRTake2 s = { chReadRest s with seq := .aMark } := if_neg hc

/-- Neither POLL nor ACQUIRE is RESYNC (R75). -/
theorem command_ne_resync {s : State} (hc : s.command = some .poll ∨ s.command = some .acquire) :
    s.command ≠ some .resync := by
  rcases hc with hc | hc <;> simp [hc]

/-- Settles O32: the byte is consumed under every command, and the command routes what follows. -/
theorem scanTakesSecondMarker : Obligations.ScanTakesSecondMarker := by
  intro s rest hs hq
  rw [engineStep_rTake2 hs]
  refine ⟨fun hc => ?_, fun hc => ?_⟩
  · rw [stepRTake2_of_resync hc, chReadRest_of_cons hq, finish]
  · rw [stepRTake2_of_ne (command_ne_resync hc), chReadRest_of_cons hq]

/-! ### The failed scan -/

theorem engineStep_rFlush {s : State} (hs : s.seq = .rFlush) : engineStep s = .next (stepRFlush s) := by
  rw [engineStep, hs]

/-- RESYNC's own ending of a failed scan is the acquirer's failure routing too, since RESYNC is not POLL (R101, R113). -/
theorem stepRFlush_eq_acqFail (s : State) : stepRFlush s = acqFail .desynchronized (chFlush s) := by
  unfold stepRFlush
  split
  · next hc => rw [acqFail, if_neg (by simp [chFlush_command, hc])]
  · rfl

/-- Settles O33: the flushed state takes the acquirer's failure routing, under POLL to the loop head and under the other
two commands to their end. -/
theorem failedScanFlushesChannel : Obligations.FailedScanFlushesChannel := by
  intro s hs
  rw [engineStep_rFlush hs, stepRFlush_eq_acqFail]
  refine ⟨fun hc => ?_, fun hc => ?_⟩
  · have hpoll : (chFlush s).command ≠ some .poll := by
      rw [chFlush_command]
      rcases hc with hc | hc <;> simp [hc]
    rw [acqFail, if_neg hpoll, finish, chFlush]
  · rw [acqFail_of_poll ((chFlush_command s).trans hc), chFlush]

end Sys2Proof.Resync
end

section
/-! The decoder's checks (R121 to R131): each outcome of Decode as a fact about numbers, the words it leaves, the bounds
of the 30-byte sum, and what one changed byte does to the sum and to the checks. -/

namespace Sys2Proof.FrameDecoder

open Machine

/-! ### The outcomes -/

/-- The checks of Decode in their order, in numbers (R123, R124, R126, R128). -/
theorem frameResult_eq_ite (F : Vector Byte 32) : frameResult F =
    if F[0] ≠ 0x42 ∨ F[1] ≠ 0x4D then .headerMismatch
    else if F[2].toNat * 256 + F[3].toNat ≠ 28 then .lengthMismatch
    else if F[30].toNat * 256 + F[31].toNat ≠ ((F.toList.take 30).map BitVec.toNat).sum then .checksumMismatch
    else .ok := by
  obtain ⟨hmarker, hlength, hsum⟩ := frame_checks F
  exact if_congr hmarker rfl (if_congr hlength rfl (if_congr hsum rfl rfl))

/-- A bad marker decides, whatever else is wrong (R123, R128). -/
theorem frameResult_of_marker_ne {F : Vector Byte 32} (hm : F[0] ≠ 0x42 ∨ F[1] ≠ 0x4D) :
    frameResult F = .headerMismatch :=
  (frameResult_eq_ite F).trans (if_pos hm)

/-- Past the marker, a bad length decides (R124, R128). -/
theorem frameResult_of_length_ne {F : Vector Byte 32} (hm : ¬ (F[0] ≠ 0x42 ∨ F[1] ≠ 0x4D))
    (hl : F[2].toNat * 256 + F[3].toNat ≠ 28) : frameResult F = .lengthMismatch := by
  rw [frameResult_eq_ite, if_neg hm, if_pos hl]

/-- Past marker and length, a bad checksum field decides (R126, R128). -/
theorem frameResult_of_sum_ne {F : Vector Byte 32} (hm : ¬ (F[0] ≠ 0x42 ∨ F[1] ≠ 0x4D))
    (hl : ¬ F[2].toNat * 256 + F[3].toNat ≠ 28)
    (hs : F[30].toNat * 256 + F[31].toNat ≠ ((F.toList.take 30).map BitVec.toNat).sum) :
    frameResult F = .checksumMismatch := by
  rw [frameResult_eq_ite, if_neg hm, if_neg hl, if_pos hs]

/-- What a frame that passes the first two checks holds in its first four bytes (R123, R124). -/
theorem marker_length_of_passed {F : Vector Byte 32} (hm : frameResult F ≠ .headerMismatch)
    (hl : frameResult F ≠ .lengthMismatch) :
    ¬ (F[0] ≠ 0x42 ∨ F[1] ≠ 0x4D) ∧ ¬ F[2].toNat * 256 + F[3].toNat ≠ 28 := by
  have hmarker : ¬ (F[0] ≠ 0x42 ∨ F[1] ≠ 0x4D) := mt frameResult_of_marker_ne hm
  exact ⟨hmarker, mt (frameResult_of_length_ne hmarker) hl⟩

/-! ### The words -/

/-- BE16at over the list of the frame's bytes (R20). -/
theorem be16At_toNat_getD (F : Vector Byte 32) (o : Nat) (h : o + 1 < 32) :
    (be16At F o).toNat = (F.toList.getD o 0).toNat * 256 + (F.toList.getD (o + 1) 0).toNat := by
  have hget (i : Nat) (hi : i < 32) : F.toList.getD i 0 = F[i] := by simp [List.getD_eq_getElem?_getD, hi]
  rw [be16At_toNat F o h, hget o (by omega), hget (o + 1) h]

/-- Word k + 1 of a frame that passed is the big-endian pair at offset 4 + 2k (R125, R127). -/
theorem frameMeas_getElem_of_ok {F : Vector Byte 32} (hF : frameResult F = .ok) (k : Fin 12) :
    (frameMeas F)[k] = be16At F (4 + 2 * k.val) := by
  rw [frameMeas, if_pos hF, show 4 + 2 * k.val = 2 + 2 * (k.val + 1) by ring]
  simp [frameWords]

/-- After a failure every word is 0 (R121). -/
theorem frameMeas_getElem_of_ne_ok {F : Vector Byte 32} (hF : frameResult F ≠ .ok) (k : Fin 12) :
    (frameMeas F)[k] = 0 := by
  rw [frameMeas, if_neg hF]
  simp

/-- The reduction mod 2^16 never changes the sum of the first 30 bytes (R122, R130). -/
theorem byteSum_frame_mod (F : Vector Byte 32) :
    ((F.toList.take 30).map BitVec.toNat).sum % 65536 = ((F.toList.take 30).map BitVec.toNat).sum :=
  Nat.mod_eq_of_lt ((byteSum_frame_le F).trans_lt (by decide))

/-- Settles O34, outcome by outcome; the reduction mod 2^16 of the sum never changes it. -/
theorem decodeChecksInOrder : Obligations.DecodeChecksInOrder := by
  intro F
  dsimp only
  rw [byteSum_frame_mod]
  refine ⟨frameResult_of_marker_ne, frameResult_of_length_ne, frameResult_of_sum_ne, fun hm hl hs => ?_,
    frameMeas_getElem_of_ne_ok⟩
  have hok : frameResult F = .ok := by rw [frameResult_eq_ite, if_neg hm, if_neg hl, if_neg hs]
  refine ⟨hok, fun k => ?_⟩
  rw [frameMeas_getElem_of_ok hok, be16At_toNat_getD F _ (by omega), show 4 + 2 * k.val + 1 = 5 + 2 * k.val by ring]

/-! ### The bounds of the sum -/

/-- The 16-bit sum is the sum of the first 30 bytes: it never wraps (R130). -/
theorem frameSum_toNat (F : Vector Byte 32) : (frameSum F).toNat = ((F.toList.take 30).map BitVec.toNat).sum :=
  byteSum_frame_mod F

/-- Past marker and length, the first four bytes add up to 171 (R130). -/
theorem frameSum_of_passed {F : Vector Byte 32} (hm : ¬ (F[0] ≠ 0x42 ∨ F[1] ≠ 0x4D))
    (hl : ¬ F[2].toNat * 256 + F[3].toNat ≠ 28) :
    (frameSum F).toNat = 171 + (((F.toList.drop 4).take 26).map BitVec.toNat).sum := by
  obtain ⟨h0, h1⟩ : F[0] = 0x42 ∧ F[1] = 0x4D := by simpa using hm
  have hlow := F[3].isLt
  rw [frameSum_toNat, frame_take_30, h0, h1]
  simp only [List.map_cons, List.sum_cons, show (0x42 : Byte).toNat = 66 from rfl,
    show (0x4D : Byte).toNat = 77 from rfl]
  omega

/-- The 26 bytes behind the declared length add up to at most 6630 (R130). -/
theorem byteSum_body_le (F : Vector Byte 32) : (((F.toList.drop 4).take 26).map BitVec.toNat).sum ≤ 6630 := by
  simpa using byteSum_le ((F.toList.drop 4).take 26)

/-- Settles O36: past marker and length the sum is 171 and at most 255 for each of the 26 bytes behind, so a checksum
field above 6801 is not the sum. -/
theorem frameSumBounds : Obligations.FrameSumBounds := by
  intro F
  refine ⟨frameSum_toNat F, (frameSum_toNat F).trans_le (byteSum_frame_le F), fun hpastMarker hpastLength => ?_⟩
  obtain ⟨hm, hl⟩ := marker_length_of_passed hpastMarker hpastLength
  have hsum := frameSum_of_passed hm hl
  have hbody := byteSum_body_le F
  refine ⟨hsum, by omega, by omega, fun hfield => frameResult_of_sum_ne hm hl ?_⟩
  rw [← frameSum_toNat]
  omega

/-! ### One changed byte -/

/-- Changing one byte of a list moves the sum by its own change. -/
theorem byteSum_set (l : List Byte) (j : Nat) (hj : j < l.length) (b : Byte) :
    ((l.set j b).map BitVec.toNat).sum + l[j].toNat = (l.map BitVec.toNat).sum + b.toNat := by
  induction l generalizing j with
  | nil => cases hj
  | cons a l ih =>
    cases j with
    | zero => simp only [List.set_cons_zero, List.getElem_cons_zero, List.map_cons, List.sum_cons]; omega
    | succ j =>
      have hrest := ih j (Nat.lt_of_succ_lt_succ hj)
      simp only [List.set_cons_succ, List.getElem_cons_succ, List.map_cons, List.sum_cons]
      omega

/-- Changing one of the first 30 bytes of a frame moves its sum by that change (R131). -/
theorem frameSum_set (F : Vector Byte 32) (j : Nat) (hj : j < 30) (b : Byte) :
    (frameSum (F.set j b)).toNat + F[j].toNat = (frameSum F).toNat + b.toNat := by
  have hset := byteSum_set (F.toList.take 30) j (by simp; omega) b
  rw [frameSum_toNat, frameSum_toNat, Vector.toList_set, List.take_set]
  simpa using hset

section
variable {F : Vector Byte 32} {j : Nat} {b : Byte}

/-- A changed marker byte fails the first check (R131). -/
theorem frameResult_set_marker (hF : frameResult F = .ok) (hj : j ≤ 1) (hb : b ≠ F[j]) :
    frameResult (F.set j b) = .headerMismatch := by
  obtain ⟨⟨h0, h1⟩, -, -⟩ := frameResult_eq_ok.1 hF
  apply frameResult_of_marker_ne
  obtain rfl | rfl : j = 0 ∨ j = 1 := by omega
  · exact .inl (by simpa [h0] using hb)
  · exact .inr (by simpa [h1] using hb)

/-- A change behind the marker leaves the marker good. -/
theorem marker_set (hF : frameResult F = .ok) (hj : 2 ≤ j) (hj32 : j < 32) :
    ¬ ((F.set j b)[0] ≠ 0x42 ∨ (F.set j b)[1] ≠ 0x4D) := by
  obtain ⟨⟨h0, h1⟩, -, -⟩ := frameResult_eq_ok.1 hF
  rw [Vector.getElem_set_ne _ _ (by omega), Vector.getElem_set_ne _ _ (by omega), h0, h1]
  simp

/-- A changed length byte fails the second check: the other length byte is unchanged, so the length moves (R131). -/
theorem frameResult_set_length (hF : frameResult F = .ok) (hj2 : 2 ≤ j) (hj3 : j ≤ 3) (hb : b ≠ F[j]) :
    frameResult (F.set j b) = .lengthMismatch := by
  obtain ⟨-, hl, -⟩ := frameResult_eq_ok.1 hF
  have hne : b.toNat ≠ F[j].toNat := fun e => hb (BitVec.eq_of_toNat_eq e)
  apply frameResult_of_length_ne (marker_set hF hj2 (by omega))
  obtain rfl | rfl : j = 2 ∨ j = 3 := by omega
  · rw [Vector.getElem_set_self, Vector.getElem_set_ne _ _ (by omega)]; omega
  · rw [Vector.getElem_set_self, Vector.getElem_set_ne _ _ (by omega)]; omega

/-- A changed byte behind the length keeps the checksum field and moves the sum, so it fails the third check (R131). -/
theorem frameResult_set_body (hF : frameResult F = .ok) (hj4 : 4 ≤ j) (hj : j < 30) (hb : b ≠ F[j]) :
    frameResult (F.set j b) = .checksumMismatch := by
  obtain ⟨-, hl, hs⟩ := frameResult_eq_ok.1 hF
  have hne : b.toNat ≠ F[j].toNat := fun e => hb (BitVec.eq_of_toNat_eq e)
  have hmoved := frameSum_set F j hj b
  rw [← frameSum_toNat] at hs
  apply frameResult_of_sum_ne (marker_set hF (by omega) (by omega))
  · rw [Vector.getElem_set_ne _ _ (by omega), Vector.getElem_set_ne _ _ (by omega)]; exact not_not.2 hl
  · rw [← frameSum_toNat, Vector.getElem_set_ne _ _ (by omega), Vector.getElem_set_ne _ _ (by omega)]; omega

end

/-- Settles O37, by the field the changed byte lies in: the marker, the declared length, or the summed rest. -/
theorem singleByteChangeIsDetected : Obligations.SingleByteChangeIsDetected := by
  intro F j b hF hj hb
  exact ⟨frameSum_set F j (by omega) b, fun h1 => frameResult_set_marker hF h1 hb,
    fun h2 h3 => frameResult_set_length hF h2 h3 hb, fun h4 => frameResult_set_body hF h4 (by omega) hb⟩

end Sys2Proof.FrameDecoder
end

section
/-! NOTIFY's step and the registry (R133 to R138): what ⟨N_NEXT⟩ does in each branch, and that between resets CAP, COUNT
and OBS move only at ⟨G_EXEC⟩, which appends. -/

namespace Sys2Proof.Registry

open Machine

/-! ### The next notification -/

theorem engineStep_nNext {s : State} (hs : s.seq = .nNext) : engineStep s = .next (stepNNext s) := by
  rw [engineStep, hs]

/-- Every slot is notified: a poll has succeeded (R94, R138). -/
theorem stepNNext_of_end_poll {s : State} (hn : s.nidx = s.count) (hc : s.command = some .poll) :
    stepNNext s = finish .ok { s with pollst := .succeeded } :=
  (if_pos hn).trans (if_pos hc)

/-- Every slot is notified: any other command ends with POLLST as it was (R138). -/
theorem stepNNext_of_end_ne_poll {s : State} (hn : s.nidx = s.count) (hc : s.command ≠ some .poll) :
    stepNNext s = finish .ok s :=
  (if_pos hn).trans (if_neg hc)

/-- A slot is left to notify: its notification becomes pending (R138). -/
theorem stepNNext_of_slot {s : State} (hn : s.nidx ≠ s.count) :
    stepNNext s = { s with note := noteWord s.nidx (s.obsAt s.nidx.toNat), seq := .nWait } :=
  if_neg hn

/-- Settles O23, by the branches of ⟨N_NEXT⟩: the end under each of its two commands, and a slot that is left. -/
theorem nextNotificationOrEnd : Obligations.NextNotificationOrEnd := by
  intro s hs
  rw [engineStep_nNext hs]
  refine ⟨fun hn hc => ?_, fun hn hc => ?_, fun hlt hn => ⟨_, rfl, ?_⟩⟩
  · rw [stepNNext_of_end_poll hn hc, finish]
  · rw [stepNNext_of_end_ne_poll hn (by simp [hc]), finish]
  · have hobs : s.obsAt s.nidx.toNat = s.obs[s.nidx.toNat] := dif_pos hlt
    rw [stepNNext_of_slot hn, ← hobs]
    exact ⟨noteWord_toNat .., rfl⟩

/-! ### Everything but ⟨G_EXEC⟩ leaves the registry as it is -/

/-- The registry, CAP, COUNT and OBS, is the same in both states (R33, R36). -/
structure SameRegistry (s t : State) : Prop where
  cap : t.cap = s.cap
  count : t.count = s.count
  obs : t.obs = s.obs

theorem SameRegistry.refl (s : State) : SameRegistry s s := ⟨rfl, rfl, rfl⟩

theorem SameRegistry.trans {s t u : State} (h : SameRegistry s t) (h' : SameRegistry t u) : SameRegistry s u :=
  ⟨h'.cap.trans h.cap, h'.count.trans h.count, h'.obs.trans h.obs⟩

theorem spendTurn_sameRegistry (s : State) : SameRegistry s (spendTurn s) :=
  ⟨spendTurn_cap s, spendTurn_count s, spendTurn_obs s⟩

theorem chAppend_sameRegistry (b : Byte) (s : State) : SameRegistry s (chAppend b s) := by
  unfold chAppend
  split <;> exact ⟨rfl, rfl, rfl⟩

/-- The acquirer's failure routing keeps the registry of the state it is given (R101). -/
theorem acqFail_sameRegistry (r : ResultCode) {s u : State} (h : SameRegistry s u) : SameRegistry s (acqFail r u) := by
  rw [acqFail_eq]
  exact ⟨h.cap, h.count, h.obs⟩

/-- No instruction touches the registry: REGISTER only starts ⟨G_EXEC⟩ (R133). -/
theorem exec_sameRegistry {i : Instr} {s t : State} (h : exec i s = .next t) : SameRegistry s t := by
  rcases exec_next h with ⟨c, d, -, -, rfl⟩ | ⟨-, rfl⟩ | ⟨-, rfl⟩ | ⟨i, b, -, rfl⟩ | ⟨v, rfl⟩ | rfl
  · cases c <;> exact ⟨rfl, rfl, rfl⟩
  all_goals exact ⟨rfl, rfl, rfl⟩

/-- The engine's other micro-steps do not touch the registry (R136). -/
theorem engineStep_sameRegistry {s t : State} (h : engineStep s = .next t) (hs : s.seq ≠ .gExec) :
    SameRegistry s t := by
  unfold engineStep at h
  generalize s.seq = q at h hs
  cases q with
  | gExec => exact (hs rfl).elim
  | dExec =>
    dsimp only [stepDExec] at h
    split at h
    · cases h
    · cases h
      unfold routeDecode
      split
      · split <;> exact ⟨rfl, rfl, rfl⟩
      · exact ⟨rfl, rfl, rfl⟩
  | idle | nWait => cases h; exact .refl s
  | pHead =>
    cases h
    unfold stepPHead
    split
    · exact ⟨rfl, rfl, rfl⟩
    · split
      · exact ⟨rfl, rfl, rfl⟩
      · split <;> exact ⟨rfl, rfl, rfl⟩
  | aSample =>
    cases h
    unfold stepASample
    split
    · exact acqFail_sameRegistry _ (.refl s)
    · split <;> exact ⟨rfl, rfl, rfl⟩
  | aRead32 => cases h; rw [stepARead32_eq]; exact ⟨rfl, rfl, rfl⟩
  | aRead30 => cases h; rw [stepARead30_eq]; exact ⟨rfl, rfl, rfl⟩
  | aMark =>
    cases h
    unfold stepAMark
    split
    · exact acqFail_sameRegistry _ ⟨rfl, rfl, rfl⟩
    · exact ⟨rfl, rfl, rfl⟩
  | rRead =>
    cases h
    unfold stepRRead
    split
    · exact ⟨rfl, rfl, rfl⟩
    · split <;> exact ⟨rfl, rfl, rfl⟩
  | rPeek => cases h; unfold stepRPeek; split <;> exact ⟨rfl, rfl, rfl⟩
  | rTake2 => cases h; unfold stepRTake2; split <;> exact ⟨rfl, rfl, rfl⟩
  | rFlush =>
    cases h
    rw [Resync.stepRFlush_eq_acqFail]
    exact acqFail_sameRegistry _ ⟨rfl, rfl, rfl⟩
  | nNext =>
    cases h
    unfold stepNNext
    split
    · split <;> exact ⟨rfl, rfl, rfl⟩
    · exact ⟨rfl, rfl, rfl⟩

theorem engineStep_gExec {s : State} (hs : s.seq = .gExec) : engineStep s = .next (stepGExec s) := by
  rw [engineStep, hs]

/-- A step other than reset leaves the registry as it is, or is the engine's ⟨G_EXEC⟩ (R136). -/
theorem step_registry_cases {s t : State} (h : step s = .next t) (hr : ∀ r, nextTurn s ≠ .reset r) :
    SameRegistry s t ∨ (nextTurn s = .engine ∧ s.seq = .gExec ∧ t = stepGExec (spendTurn s)) := by
  have hu := spendTurn_sameRegistry s
  obtain ⟨-, h⟩ := step_next h
  rcases h with ⟨-, -, rfl⟩ | ⟨hn, -, h⟩ | ⟨w, -, -, rfl⟩ | ⟨w, i, -, -, -, h⟩ | ⟨b, -, rfl⟩ | ⟨r, hn, -⟩
  · exact .inl hu
  · by_cases hs : (spendTurn s).seq = .gExec
    · rw [engineStep_gExec hs] at h
      cases h
      exact .inr ⟨hn, (spendTurn_seq s).symm.trans hs, rfl⟩
    · exact .inl (hu.trans (engineStep_sameRegistry h hs))
  · exact .inl hu
  · exact .inl (hu.trans (exec_sameRegistry h))
  · exact .inl (hu.trans (chAppend_sameRegistry b _))
  · exact (hr r hn).elim

/-! ### The registry grows -/

/-- CAP stands, COUNT grows by at most 1 and not past CAP, and the slots below COUNT are kept (R33, R136). -/
structure RegistryGrows (s t : State) : Prop where
  cap : t.cap = s.cap
  count_ge : s.count.toNat ≤ t.count.toNat
  count_le : t.count.toNat ≤ s.count.toNat + 1
  count_le_cap : t.count.toNat ≤ t.cap.toNat
  slots : ∀ j : Fin 10, j.val < s.count.toNat → t.obs[j] = s.obs[j]

/-- An unchanged registry has grown by nothing. -/
theorem SameRegistry.grows {s t : State} (h : SameRegistry s t) (hle : s.count ≤ s.cap) : RegistryGrows s t where
  cap := h.cap
  count_ge := h.count ▸ Nat.le_refl _
  count_le := h.count ▸ Nat.le_succ _
  count_le_cap := by rw [h.count, h.cap]; exact hle
  slots _ _ := by rw [h.obs]

/-- Growth is a matter of the registry alone. -/
theorem RegistryGrows.of_sameRegistry {s u t : State} (h : RegistryGrows u t) (hu : SameRegistry s u) :
    RegistryGrows s t := by
  obtain ⟨hcap, hge, hle, hfit, hslots⟩ := h
  rw [hu.cap] at hcap
  simp only [hu.count, hu.obs] at hge hle hslots
  exact ⟨hcap, hge, hle, hfit, hslots⟩

/-- ⟨G_EXEC⟩ with a handle and a free slot appends the handle at COUNT (R133). -/
theorem stepGExec_of_append {s : State} (h : s.handle ≠ 0 ∧ s.count < s.cap) :
    stepGExec s =
      finish .ok { s with obs := s.obs.setIfInBounds s.count.toNat s.handle, count := s.count + 1 } :=
  if_pos h

/-- ⟨G_EXEC⟩ with a null handle or a full registry drops the handle (R133, R134). -/
theorem stepGExec_of_drop {s : State} (h : ¬ (s.handle ≠ 0 ∧ s.count < s.cap)) : stepGExec s = finish .ok s :=
  if_neg h

/-- ⟨G_EXEC⟩ grows the registry: the appended handle stands behind the slots in use (R133, R136). -/
theorem stepGExec_grows {s : State} (hle : s.count ≤ s.cap) : RegistryGrows s (stepGExec s) := by
  by_cases h : s.handle ≠ 0 ∧ s.count < s.cap
  · have hlt : s.count.toNat < s.cap.toNat := h.2
    have hcap : s.cap.toNat < 16 := s.cap.isLt
    have hadd : (s.count + 1).toNat = s.count.toNat + 1 :=
      BitVec.toNat_add_of_lt (show s.count.toNat + 1 < 16 by omega)
    rw [stepGExec_of_append h]
    exact ⟨rfl, (Nat.le_succ _).trans_eq hadd.symm, hadd.le, hadd.trans_le hlt,
      fun j hj => Vector.getElem_setIfInBounds_ne j.isLt (by omega)⟩
  · rw [stepGExec_of_drop h]
    exact SameRegistry.grows ⟨rfl, rfl, rfl⟩ hle

/-- Settles O44: a step leaves the registry as it is, or it is ⟨G_EXEC⟩, which grows it. -/
theorem registryOnlyGrowsUntilReset : Obligations.RegistryOnlyGrowsUntilReset := by
  intro s t hinv hstep hreset
  have hcases := step_registry_cases hstep hreset
  have hgrows : RegistryGrows s t := by
    rcases hcases with hsame | ⟨-, -, rfl⟩
    · exact hsame.grows hinv.count_le
    · have hu := spendTurn_sameRegistry s
      have hle : (spendTurn s).count ≤ (spendTurn s).cap := by rw [hu.count, hu.cap]; exact hinv.count_le
      exact (stepGExec_grows hle).of_sameRegistry hu
  obtain ⟨hcap, hge, hone, hfit, hslots⟩ := hgrows
  refine ⟨hcap, hge, hone, hfit, hslots, fun hne => ?_⟩
  rcases hcases with hsame | ⟨hn, hs, -⟩
  · exact absurd hsame.obs (hne.resolve_left (not_not_intro hsame.count))
  · exact ⟨hn, hs⟩

end Sys2Proof.Registry
end

section
/-! The two directions of the round trip (R71 to R76, R81), the rows and addresses written out from the spec's tables, and
that a write means the same decoded as it does as a BusWrite (R84, R88). -/

namespace Sys2Proof.Transactions

open Machine Laws Encoding HostAccess

/-- Settles O6, row by row of the opcode table. -/
theorem decodeEncodeRoundTrip : Obligations.DecodeEncodeRoundTrip := by
  intro i
  cases i with
  | poll => exact RoundTrip.poll
  | acquire => exact RoundTrip.acquire
  | resync => exact RoundTrip.resync
  | decode => exact RoundTrip.decode
  | register h => exact RoundTrip.register h
  | notify => exact RoundTrip.notify
  | ackDone => exact RoundTrip.ackDone
  | ackError => exact RoundTrip.ackError
  | rd a => exact RoundTrip.rd a
  | wr a d => exact RoundTrip.wr a d

/-! ### From the word to the instruction -/

/-- The transaction of a command writes the word of its OP and ARG to CMD (R75, R81). -/
theorem encode_commandInstr (c : Command) {h : Byte} (hc : c = .register ∨ h = 0#8) :
    encode (commandInstr c h) = mkHbt true 0x00 (mkCmd h (commandOp c)) := by
  cases c with
  | register => rfl
  | _ => obtain rfl := hc.resolve_left nofun; rfl

/-- Every command is well formed (R76). -/
theorem commandInstr_wf (c : Command) (h : Byte) : (commandInstr c h).wf = true := by
  cases c <;> rfl

/-- A legal CMD word is read as a well-formed command whose transaction carries that word (R75). -/
theorem wf_encode_of_decodeCmd {d : Word} {i : Instr} (h : decodeCmd d = .ok i) :
    i.wf = true ∧ encode i = mkHbt true 0x00 d := by
  obtain ⟨c, hc, rfl⟩ := decodeCmd_eq_ok h
  obtain ⟨-, -, harg⟩ := checkCmd_eq_ok.1 hc
  exact ⟨commandInstr_wf c _, by rw [encode_commandInstr c harg, mkCmd_of_checkCmd hc]⟩

/-- The two ACK words that decode (R73). -/
theorem decodeAck_eq_ok {d : Word} {i : Instr} (h : decodeAck d = .ok i) :
    d = 0x0001 ∧ i = .ackDone ∨ d = 0x0002 ∧ i = .ackError := by
  unfold decodeAck at h
  split at h
  · next hd => cases h; exact .inl ⟨hd, rfl⟩
  · split at h
    · next hd => cases h; exact .inr ⟨hd, rfl⟩
    · cases h

/-- The words that decode, by their fields: a read without data, or a write by the register it names (R76). -/
theorem decodeHbt_mkHbt_ok {we : Bool} {a : BusAddr} {d : Word} {i : Instr} (h : decodeHbt (mkHbt we a d) = .ok i) :
    (we = false ∧ d = 0 ∧ Instr.wfRead a = true ∧ i = .rd a) ∨
      (we = true ∧ a = 0x00 ∧ decodeCmd d = .ok i) ∨
      (we = true ∧ a = 0x04 ∧ decodeAck d = .ok i) ∨
      (we = true ∧ Instr.wfWrite a = true ∧ i = .wr a d) := by
  rcases hr : regAt a with _ | r
  · by_cases hd : we = false ∧ d ≠ 0
    · rw [hd.1, decodeHbt_read_data a hd.2] at h; cases h
    · rw [decodeHbt_unmapped hr fun hw => by simpa [hw] using hd] at h; cases h
  have hmapped : regAt a ≠ none := by simp [hr]
  cases we with
  | false =>
    by_cases hd : d = 0
    · have hwf : Instr.wfRead a = true := Option.isSome_iff_ne_none.2 hmapped
      subst hd
      cases (RoundTrip.rd a hwf).symm.trans h
      exact .inl ⟨rfl, rfl, hwf, rfl⟩
    · rw [decodeHbt_read_data a hd] at h; cases h
  | true =>
    by_cases hcmd : a = 0x00
    · subst hcmd
      exact .inr (.inl ⟨rfl, rfl, (RoundTrip.decodeHbt_cmd d).symm.trans h⟩)
    · by_cases hack : a = 0x04
      · subst hack
        exact .inr (.inr (.inl ⟨rfl, rfl, (RoundTrip.decodeHbt_ack d).symm.trans h⟩))
      · have hwf : Instr.wfWrite a = true := wfWrite_iff.2 ⟨hmapped, hcmd, hack⟩
        cases (RoundTrip.wr a d hwf).symm.trans h
        exact .inr (.inr (.inr ⟨rfl, hwf, rfl⟩))

/-- Settles O7: a word is its three fields, and in each case of the decoder the fields are those the encoder assembles. -/
theorem acceptedWordIsAnEncoding : Obligations.AcceptedWordIsAnEncoding := by
  intro w i h
  obtain ⟨we, a, d, rfl⟩ : ∃ we a d, mkHbt we a d = w := ⟨_, _, _, mkHbt_fields w⟩
  rcases decodeHbt_mkHbt_ok h with ⟨rfl, rfl, hwf, rfl⟩ | ⟨rfl, rfl, hd⟩ | ⟨rfl, rfl, hd⟩ | ⟨rfl, hwf, rfl⟩
  · exact ⟨hwf, rfl⟩
  · exact wf_encode_of_decodeCmd hd
  · rcases decodeAck_eq_ok hd with ⟨rfl, rfl⟩ | ⟨rfl, rfl⟩ <;> exact ⟨rfl, rfl⟩
  · exact ⟨hwf, rfl⟩

/-! ### The tables of the spec -/

/-- Settles O1, by running the decoder on the ten words. -/
theorem sampleWordsDecode : Obligations.SampleWordsDecode := by
  unfold Obligations.SampleWordsDecode
  decide

theorem regAt_eq_some_iff_toNat {a : BusAddr} {r : Reg} : regAt a = some r ↔ a.toNat = (regAddr r).toNat := by
  rw [regAt_eq_some, BitVec.toNat_inj]

/-- The three unmapped ranges (R47). -/
theorem regAt_eq_none_iff {a : BusAddr} : regAt a = none ↔
    (0x05 ≤ a.toNat ∧ a.toNat ≤ 0x0F) ∨ (0x1A ≤ a.toNat ∧ a.toNat ≤ 0x1F) ∨ 0x4C ≤ a.toNat := by
  revert a; decide

theorem regAddr_toNat (r : Reg) : (regAddr r).toNat =
    match r with
    | .cmd => 0x00 | .status => 0x01 | .config => 0x02 | .note => 0x03 | .ack => 0x04
    | .obs j => 0x10 + j.val | .fbuf i => 0x20 + i.val | .meas k => 0x40 + k.val := by
  cases r with
  | obs j => exact Nat.mod_eq_of_lt (by omega)
  | fbuf i => exact Nat.mod_eq_of_lt (by omega)
  | meas k => exact Nat.mod_eq_of_lt (by omega)
  | _ => rfl

/-- Settles O5: a register stands at the one address the map gives it, and the rest is unmapped. -/
theorem registerMapPlacesEveryRegister : Obligations.RegisterMapPlacesEveryRegister := by
  intro a
  have row (r : Reg) := regAt_eq_some_iff_toNat (a := a) (r := r)
  simp only [regAddr_toNat] at row
  exact ⟨row .cmd, row .status, row .config, row .note, row .ack, fun j => row (.obs j), fun i => row (.fbuf i),
    fun k => row (.meas k), regAt_eq_none_iff⟩

/-! ### Writes, decoded and as BusWrite -/

/-- A write to ACK is Ack of its word (R84). -/
theorem exec_wr_ack (d : Word) (s : State) : exec (.wr 0x04 d) s = ackWrite d s := rfl

theorem exec_ackDone_eq (s : State) : exec .ackDone s = ackWrite 0x0001 s := rfl

theorem exec_ackError_eq (s : State) : exec .ackError s = ackWrite 0x0002 s := rfl

/-- Settles O11: a decoded write is a legal CMD word, which Issue accepts as the command does, one of the two ACK words,
or the plain write itself. -/
theorem decodedWriteIsBusWrite : Obligations.DecodedWriteIsBusWrite := by
  intro s a d i h
  rcases decodeHbt_mkHbt_ok h with ⟨hwe, -⟩ | ⟨-, rfl, hd⟩ | ⟨-, rfl, hd⟩ | ⟨-, -, rfl⟩
  · cases hwe
  · obtain ⟨c, hc, rfl⟩ := decodeCmd_eq_ok hd
    rw [exec_wr_cmd, issue_of_ok hc, exec_commandInstr_cmdArg hc]
  · rcases decodeAck_eq_ok hd with ⟨rfl, rfl⟩ | ⟨rfl, rfl⟩
    · rw [exec_wr_ack, exec_ackDone_eq]
    · rw [exec_wr_ack, exec_ackError_eq]
  · rfl

/-- A CMD word that is rejected is rejected by the tests of Issue (R77, R88). -/
theorem checkCmd_of_decodeCmd_reject {d : Word} {e : DecodeError} (h : decodeCmd d = .reject e) :
    checkCmd d = .error e := by
  unfold decodeCmd at h
  split at h
  · next hc => cases h; exact hc
  · cases h

/-- An ACK word that is rejected is neither DONE nor ERROR (R73, R77). -/
theorem decodeAck_eq_reject {d : Word} {e : DecodeError} (h : decodeAck d = .reject e) :
    e = .reservedAckCode ∧ d ≠ 0x0001 ∧ d ≠ 0x0002 := by
  unfold decodeAck at h
  split at h
  · cases h
  · next h1 =>
    split at h
    · cases h
    · next h2 => cases h; exact ⟨rfl, h1, h2⟩

/-- Ack of any word but DONE and ERROR is refused as the decoder's rejection is (R139, R147). -/
theorem ackWrite_of_reserved {d : Word} (h1 : d ≠ 0x0001) (h2 : d ≠ 0x0002) (s : State) :
    ackWrite d s = .refused (rejection .reservedAckCode s) := by
  rw [ackWrite, rejection, if_neg h1, if_neg h2]
  cases notePend s <;> rfl

/-- Settles O10, by the address: unmapped, CMD, ACK, and the others, whose writes are never rejected. -/
theorem rejectedWriteIsBusWriteRefusal : Obligations.RejectedWriteIsBusWriteRefusal := by
  intro s a d e h
  rcases hr : regAt a with _ | r
  · cases (decodeHbt_unmapped hr (d := d) (we := true) nofun).symm.trans h
    rw [exec, execWr, hr, rejection]
  by_cases hcmd : a = 0x00
  · subst hcmd
    have hc := checkCmd_of_decodeCmd_reject ((RoundTrip.decodeHbt_cmd d).symm.trans h)
    rw [exec_wr_cmd, issue, hc]
  by_cases hack : a = 0x04
  · subst hack
    obtain ⟨rfl, h1, h2⟩ := decodeAck_eq_reject ((RoundTrip.decodeHbt_ack d).symm.trans h)
    rw [exec_wr_ack, ackWrite_of_reserved h1 h2]
  · cases (RoundTrip.wr a d (wfWrite_iff.2 ⟨by simp [hr], hcmd, hack⟩)).symm.trans h

end Sys2Proof.Transactions
end

section
/-! What one engine step can do, said once (R25, R88 to R138): it ends its command through FINISH, or it goes on to another
micro-step. The two relations list the branches with their guards and the state each leaves; later proofs read them. -/

namespace Sys2Proof.Engine

open Machine Acquire Resync Registry

/-! ### The branches -/

/-- Where an acquisition fails: the code it fails with, and the state the failure is routed from (R101). -/
inductive AcqStop (s : State) : ResultCode → State → Prop
  /-- Fewer than 32 bytes (R102). -/
  | short (hs : s.seq = .aSample) (hq : s.queue.length < 32) : AcqStop s .insufficientData s
  /-- No marker pair in the channel (R113). -/
  | noMarker (hs : s.seq = .rFlush) : AcqStop s .desynchronized (chFlush s)
  /-- Fewer than 30 bytes behind the marker pair (R104). -/
  | shortRest (hs : s.seq = .aMark) (hq : s.queue.length < 30) : AcqStop s .insufficientData (placeMarker s)

/-- The engine steps that end the command: with which code, and the state that FINISH is applied to (R89). -/
inductive Ends (s : State) : ResultCode → State → Prop
  | append (hs : s.seq = .gExec) (h : s.handle ≠ 0 ∧ s.count < s.cap) :
    Ends s .ok { s with obs := s.obs.setIfInBounds s.count.toNat s.handle, count := s.count + 1 }
  | drop (hs : s.seq = .gExec) (h : ¬ (s.handle ≠ 0 ∧ s.count < s.cap)) : Ends s .ok s
  | noRetries (hs : s.seq = .pHead) (hr : s.retry = 0) : Ends s .timeout { s with pollst := .exhausted }
  | expired (hs : s.seq = .pHead) (hp : s.pfirst = false) : Ends s .timeout { drawTaken s with pollst := .exhausted }
  | acqFailed {r : ResultCode} {u : State} (hu : AcqStop s r u) (hc : s.command ≠ some .poll) : Ends s r u
  | pairFound (hs : s.seq = .rTake2) (hc : s.command = some .resync) : Ends s .ok (chReadRest s)
  | decoded (hs : s.seq = .dExec) (hw : ∀ i : Fin 32, s.written[i] = true) (hc : s.command ≠ some .poll) :
    Ends s (frameResult s.fbuf) { s with meas := frameMeas s.fbuf }
  | pollNotified (hs : s.seq = .nNext) (hn : s.nidx = s.count) (hc : s.command = some .poll) :
    Ends s .ok { s with pollst := .succeeded }
  | notified (hs : s.seq = .nNext) (hn : s.nidx = s.count) (hc : s.command ≠ some .poll) : Ends s .ok s

/-- The engine steps that go on to another micro-step of the same command. -/
inductive Goes (s : State) : State → Prop
  | firstHead (hs : s.seq = .pHead) (hr : s.retry ≠ 0) (hp : s.pfirst = true) : Goes s (pollIterate s)
  | laterHead (hs : s.seq = .pHead) (hr : s.retry ≠ 0) (hp : s.pfirst = false) : Goes s (pollIterate (drawTaken s))
  | acqRetried {r : ResultCode} {u : State} (hu : AcqStop s r u) (hc : s.command = some .poll) :
    Goes s { u with seq := .pHead }
  | sampledFrame (hs : s.seq = .aSample) (hq : s.queue.length = 32) : Goes s { s with seq := .aRead32 }
  | sampledMore (hs : s.seq = .aSample) (hq : 32 < s.queue.length) : Goes s { s with seq := .rRead }
  | read32 (hs : s.seq = .aRead32) : Goes s (stepARead32 s)
  | scanEnded (hs : s.seq = .rRead) (hq : s.queue = []) : Goes s { s with seq := .rFlush }
  | scanMarker {rest : List Byte} (hs : s.seq = .rRead) (hq : s.queue = 0x42 :: rest) :
    Goes s { s with queue := rest, seq := .rPeek }
  | scanOther {b : Byte} {rest : List Byte} (hs : s.seq = .rRead) (hq : s.queue = b :: rest) :
    Goes s { s with queue := rest, seq := .rRead }
  | peekPair (hs : s.seq = .rPeek) (hq : s.queue.head? = some 0x4D) : Goes s { s with seq := .rTake2 }
  | peekOther (hs : s.seq = .rPeek) : Goes s { s with seq := .rRead }
  | pairTaken (hs : s.seq = .rTake2) (hc : s.command ≠ some .resync) : Goes s { chReadRest s with seq := .aMark }
  | marked (hs : s.seq = .aMark) (hq : 30 ≤ s.queue.length) : Goes s { placeMarker s with seq := .aRead30 }
  | read30 (hs : s.seq = .aRead30) : Goes s (stepARead30 s)
  | decodedOk (hs : s.seq = .dExec) (hc : s.command = some .poll) :
    Goes s { s with meas := frameMeas s.fbuf, nidx := 0, seq := .nNext }
  | decodedBad (hs : s.seq = .dExec) (hc : s.command = some .poll) :
    Goes s { s with meas := frameMeas s.fbuf, seq := .pHead }
  | notify (hs : s.seq = .nNext) (hn : s.nidx ≠ s.count) :
    Goes s { s with note := noteWord s.nidx (s.obsAt s.nidx.toNat), seq := .nWait }

/-- The two ways of a step that answers: it ends the command, or it goes on. -/
def Moves (s t : State) : Prop := (∃ r u, Ends s r u ∧ t = finish r u) ∨ Goes s t

theorem Ends.moves {s u : State} {r : ResultCode} (h : Ends s r u) : Moves s (finish r u) := .inl ⟨r, u, h, rfl⟩

theorem Goes.moves {s t : State} (h : Goes s t) : Moves s t := .inr h

/-! ### Each micro-step takes one of its branches -/

theorem engineStep_pHead {s : State} (hs : s.seq = .pHead) : engineStep s = .next (stepPHead s) := by
  rw [engineStep, hs]

theorem engineStep_dExec {s : State} (hs : s.seq = .dExec) : engineStep s = stepDExec s := by
  rw [engineStep, hs]

/-- With no retry left the poll ends without a draw (R92). -/
theorem stepPHead_of_retry_zero {s : State} (hr : s.retry = 0) : stepPHead s = pollExhausted s := if_pos hr

/-- The first head asks no draw (R92). -/
theorem stepPHead_of_first {s : State} (hr : s.retry ≠ 0) (hp : s.pfirst = true) : stepPHead s = pollIterate s :=
  (if_neg hr).trans (if_pos hp)

/-- A later head takes a draw, which ends the poll when it is true (R92). -/
theorem stepPHead_of_later {s : State} (hr : s.retry ≠ 0) (hp : s.pfirst = false) :
    stepPHead s = if drawValue s then pollExhausted (drawTaken s) else pollIterate (drawTaken s) :=
  (if_neg hr).trans (if_neg (by simp [hp]))

/-- A byte without a value stops the decoder (R120). -/
theorem stepDExec_of_unwritten {s : State} {i : Fin 32} (h : someUnwritten s.written = some i) :
    stepDExec s = .fault (.unwrittenFrameByte i) := by
  rw [stepDExec, h]

/-- A frame whose bytes all hold values is decoded (R120). -/
theorem stepDExec_of_written {s : State} (h : ∀ i : Fin 32, s.written[i] = true) :
    stepDExec s = .next (routeDecode (frameResult s.fbuf) { s with meas := frameMeas s.fbuf }) := by
  rw [stepDExec, someUnwritten_eq_none.2 h]

/-- A failure is retried under POLL and ends any other command (R101). -/
theorem AcqStop.moves {s u : State} {r : ResultCode} (h : AcqStop s r u) (hc : u.command = s.command) :
    Moves s (acqFail r u) := by
  rcases acqFail_cases r u with ⟨hp, e⟩ | ⟨hp, e⟩
  · rw [e]; exact (Goes.acqRetried h (hc ▸ hp)).moves
  · rw [e]; exact (Ends.acqFailed h (hc ▸ hp)).moves

theorem stepGExec_moves {s : State} (hs : s.seq = .gExec) : Moves s (stepGExec s) := by
  by_cases h : s.handle ≠ 0 ∧ s.count < s.cap
  · rw [stepGExec_of_append h]; exact (Ends.append hs h).moves
  · rw [stepGExec_of_drop h]; exact (Ends.drop hs h).moves

theorem stepPHead_moves {s : State} (hs : s.seq = .pHead) : Moves s (stepPHead s) := by
  by_cases hr : s.retry = 0
  · rw [stepPHead_of_retry_zero hr]; exact (Ends.noRetries hs hr).moves
  · cases hp : s.pfirst with
    | true => rw [stepPHead_of_first hr hp]; exact (Goes.firstHead hs hr hp).moves
    | false =>
      rw [stepPHead_of_later hr hp]
      split
      · exact (Ends.expired hs hp).moves
      · exact (Goes.laterHead hs hr hp).moves

theorem stepASample_moves {s : State} (hs : s.seq = .aSample) : Moves s (stepASample s) := by
  rcases Nat.lt_trichotomy s.queue.length 32 with hq | hq | hq
  · rw [stepASample_of_lt hq]; exact (AcqStop.short hs hq).moves rfl
  · rw [stepASample_of_eq hq]; exact (Goes.sampledFrame hs hq).moves
  · rw [stepASample_of_gt hq]; exact (Goes.sampledMore hs hq).moves

theorem stepRRead_moves {s : State} (hs : s.seq = .rRead) : Moves s (stepRRead s) := by
  rcases hq : s.queue with _ | ⟨b, rest⟩
  · rw [stepRRead_of_nil hq]; exact (Goes.scanEnded hs hq).moves
  · by_cases hb : b = 0x42
    · subst hb; rw [stepRRead_of_marker hq]; exact (Goes.scanMarker hs hq).moves
    · rw [stepRRead_of_ne hq hb]; exact (Goes.scanOther hs hq).moves

theorem stepRPeek_moves {s : State} (hs : s.seq = .rPeek) : Moves s (stepRPeek s) := by
  by_cases hq : s.queue.head? = some 0x4D
  · rw [stepRPeek_of_marker hq]; exact (Goes.peekPair hs hq).moves
  · rw [stepRPeek_of_ne hq]; exact (Goes.peekOther hs).moves

theorem stepRTake2_moves {s : State} (hs : s.seq = .rTake2) : Moves s (stepRTake2 s) := by
  by_cases hc : s.command = some .resync
  · rw [stepRTake2_of_resync hc]; exact (Ends.pairFound hs hc).moves
  · rw [stepRTake2_of_ne hc]; exact (Goes.pairTaken hs hc).moves

theorem stepAMark_moves {s : State} (hs : s.seq = .aMark) : Moves s (stepAMark s) := by
  rcases Nat.lt_or_ge s.queue.length 30 with hq | hq
  · rw [stepAMark_of_lt hq]; exact (AcqStop.shortRest hs hq).moves (placeMarker_command s)
  · rw [stepAMark_of_ge hq]; exact (Goes.marked hs hq).moves

theorem routeDecode_moves {s : State} (hs : s.seq = .dExec) (hw : ∀ i : Fin 32, s.written[i] = true) :
    Moves s (routeDecode (frameResult s.fbuf) { s with meas := frameMeas s.fbuf }) := by
  unfold routeDecode
  split
  · next hc =>
    split
    · exact (Goes.decodedOk hs hc).moves
    · exact (Goes.decodedBad hs hc).moves
  · next hc => exact (Ends.decoded hs hw hc).moves

theorem stepNNext_moves {s : State} (hs : s.seq = .nNext) : Moves s (stepNNext s) := by
  by_cases hn : s.nidx = s.count
  · by_cases hc : s.command = some .poll
    · rw [stepNNext_of_end_poll hn hc]; exact (Ends.pollNotified hs hn hc).moves
    · rw [stepNNext_of_end_ne_poll hn hc]; exact (Ends.notified hs hn hc).moves
  · rw [stepNNext_of_slot hn]; exact (Goes.notify hs hn).moves

/-- An engine step that answers: there is none in IDLE and in N_WAIT, and any other takes a branch of its micro-step. -/
theorem engineStep_next {s t : State} (h : engineStep s = .next t) :
    ((s.seq = .idle ∨ s.seq = .nWait) ∧ t = s) ∨ Moves s t := by
  unfold engineStep at h
  split at h
  case h_12 hs =>
    rcases hw : someUnwritten s.written with _ | i
    · have hw := someUnwritten_eq_none.1 hw
      rw [stepDExec_of_written hw] at h
      cases h; exact .inr (routeDecode_moves hs hw)
    · rw [stepDExec_of_unwritten hw] at h; cases h
  all_goals cases h
  case h_1 hs => exact .inl ⟨.inl hs, rfl⟩
  case h_2 hs => exact .inr (stepGExec_moves hs)
  case h_3 hs => exact .inr (stepPHead_moves hs)
  case h_4 hs => exact .inr (stepASample_moves hs)
  case h_5 hs => exact .inr (Goes.read32 hs).moves
  case h_6 hs => exact .inr (stepRRead_moves hs)
  case h_7 hs => exact .inr (stepRPeek_moves hs)
  case h_8 hs => exact .inr (stepRTake2_moves hs)
  case h_9 hs => rw [stepRFlush_eq_acqFail]; exact .inr ((AcqStop.noMarker hs).moves (chFlush_command s))
  case h_10 hs => exact .inr (stepAMark_moves hs)
  case h_11 hs => exact .inr (Goes.read30 hs).moves
  case h_13 hs => exact .inr (stepNNext_moves hs)
  case h_14 hs => exact .inl ⟨.inr hs, rfl⟩

/-! ### What the branches leave unchanged -/

/-- The registers that the branches keep until FINISH: the command and its STATUS but for the poll's fields, and CAP. -/
structure SameCommand (s t : State) : Prop where
  cmd : t.cmd = s.cmd
  result : t.result = s.result
  busy : t.busy = s.busy
  timer : t.timer = s.timer
  cap : t.cap = s.cap
  chanCap : t.chanCap = s.chanCap

theorem SameCommand.command {s t : State} (h : SameCommand s t) : t.command = s.command := by
  rw [State.command, State.command, h.cmd]

theorem AcqStop.sameCommand {s u : State} {r : ResultCode} (h : AcqStop s r u) : SameCommand s u := by
  cases h <;> exact ⟨rfl, rfl, rfl, rfl, rfl, rfl⟩

theorem Ends.sameCommand {s u : State} {r : ResultCode} (h : Ends s r u) : SameCommand s u := by
  cases h with
  | acqFailed hu => exact hu.sameCommand
  | _ => exact ⟨rfl, rfl, rfl, rfl, rfl, rfl⟩

theorem Goes.sameCommand {s t : State} (h : Goes s t) : SameCommand s t := by
  cases h with
  | acqRetried hu =>
    obtain ⟨hcmd, hresult, hbusy, htimer, hcap, hchan⟩ := hu.sameCommand
    exact ⟨hcmd, hresult, hbusy, htimer, hcap, hchan⟩
  | read32 => rw [stepARead32_eq]; exact ⟨rfl, rfl, rfl, rfl, rfl, rfl⟩
  | read30 => rw [stepARead30_eq]; exact ⟨rfl, rfl, rfl, rfl, rfl, rfl⟩
  | _ => exact ⟨rfl, rfl, rfl, rfl, rfl, rfl⟩

/-- The micro-step that follows is never IDLE: only FINISH goes there (R89). -/
theorem Goes.seq_ne_idle {s t : State} (h : Goes s t) : t.seq ≠ .idle := by
  cases h with
  | firstHead | laterHead => simp only [pollIterate]; split <;> simp
  | read32 => rw [stepARead32_eq]; simp
  | read30 => rw [stepARead30_eq]; simp
  | _ => simp

/-- Every branch takes bytes off the front of the channel, or none (R57 to R60). -/
theorem AcqStop.queue_drop {s u : State} {r : ResultCode} (h : AcqStop s r u) : ∃ n, u.queue = s.queue.drop n := by
  cases h with
  | noMarker => exact ⟨s.queue.length, List.drop_length.symm⟩
  | _ => exact ⟨0, rfl⟩

theorem Ends.queue_drop {s u : State} {r : ResultCode} (h : Ends s r u) : ∃ n, u.queue = s.queue.drop n := by
  cases h with
  | acqFailed hu => exact hu.queue_drop
  | pairFound => exact ⟨1, List.drop_one.symm⟩
  | _ => exact ⟨0, rfl⟩

theorem Goes.queue_drop {s t : State} (h : Goes s t) : ∃ n, t.queue = s.queue.drop n := by
  cases h with
  | acqRetried hu => exact hu.queue_drop
  | read32 => rw [stepARead32_eq]; exact ⟨32, rfl⟩
  | read30 => rw [stepARead30_eq]; exact ⟨30, rfl⟩
  | scanMarker _ hq => exact ⟨1, by rw [hq, List.drop_one, List.tail_cons]⟩
  | scanOther _ hq => exact ⟨1, by rw [hq, List.drop_one, List.tail_cons]⟩
  | pairTaken => exact ⟨1, List.drop_one.symm⟩
  | _ => exact ⟨0, rfl⟩

end Sys2Proof.Engine
end

section
/-! The invariant (R25 to R42, R54, R61, R107): its clauses grouped into those of every micro-step, those of the micro-step
that SEQ names, and those of a command that has ended or runs; each kind of step keeps each group. -/

namespace Sys2Proof.Invariant

open Machine Acquire Resync Registry HostAccess Engine

/-! ### The groups of clauses -/

/-- The clauses of CONFIG and OBS (R33, R36). -/
structure Slots (s : State) : Prop where
  count_le : s.count ≤ s.cap
  cap_le : s.cap ≤ 10
  obs_slots : ∀ j : Fin 10, j.val < s.count.toNat ↔ s.obs[j] ≠ 0

/-- The clauses of every micro-step. -/
structure Registers (s : State) : Prop where
  slots : Slots s
  cmd_legal : cmdLegal s.cmd = true
  nidx_le : s.nidx ≤ 10
  note : s.note = if s.seq = .nWait then noteWord s.nidx (s.obsAt s.nidx.toNat) else 0
  queue_le : s.queue.length ≤ s.chanCap

/-- The clauses of the micro-step that comes next. -/
def AtSeq (s : State) : Prop :=
  match s.seq with
  | .nWait => s.nidx < s.count
  | .nNext => s.nidx ≤ s.count
  | .aRead32 => 32 ≤ s.queue.length
  | .aRead30 => 30 ≤ s.queue.length ∧ s.fbuf[0] = 0x42 ∧ s.fbuf[1] = 0x4D ∧ s.written[0] = true ∧ s.written[1] = true
  | .rTake2 => s.queue.head? = some 0x4D
  | .dExec => s.command ≠ some .decode → ∀ i : Fin 32, s.written[i] = true
  | .idle | .gExec | .pHead | .aSample | .rRead | .rPeek | .rFlush | .aMark => True

/-- The clauses of a block that is idle: the last command, if any, has left a result of its own. -/
structure Ended (s : State) : Prop where
  seq : s.seq = .idle
  busy : s.busy = false
  result : (s.cmd = 0 ∧ s.result = .none) ∨ ∃ c, s.command = some c ∧ s.result ∈ resultsOf c
  pollst : s.command = some .poll → s.pollst = pollstAfter s.result
  pfirst : s.pfirst = false

/-- The clauses of a command that runs. -/
structure Running (s : State) : Prop where
  seq : s.seq ≠ .idle
  busy : s.busy = true
  result : s.result = .none
  seq_command : ∃ c ∈ seqCommands s.seq, s.command = some c
  poll : s.command = some .poll → s.pollst = .attempting ∧ s.timer = .running
  pfirst : s.pfirst = true → s.seq = .pHead ∧ s.retry = 3
  retry_spent : s.command = some .poll → s.pfirst = false → s.retry ≠ 3

theorem registers_of_inv {s : State} (h : s.Inv) : Registers s where
  slots := ⟨h.count_le, h.cap_le, h.obs_slots⟩
  cmd_legal := h.cmd_legal
  nidx_le := h.nidx_le
  note := by
    split
    · next hs => exact h.note_wait hs
    · next hs => exact h.note_idle hs
  queue_le := h.queue_le

theorem atSeq_of_inv {s : State} (h : s.Inv) : AtSeq s := by
  unfold AtSeq
  split
  · next hs => exact h.nidx_wait hs
  · next hs => exact h.nidx_next hs
  · next hs => exact h.read32_bytes hs
  · next hs => exact ⟨h.read30_bytes hs, h.read30_marker hs⟩
  · next hs => exact h.take2_head hs
  · next hs => exact h.acquired_written hs
  all_goals trivial

theorem ended_or_running_of_inv {s : State} (h : s.Inv) : Ended s ∨ Running s := by
  cases hb : s.busy with
  | false =>
    have hs : s.seq = .idle := not_not.1 fun hs => by simp [h.busy_iff.2 hs] at hb
    have hp : s.pfirst = false := Bool.eq_false_iff.2 fun hp => by simp [(h.pfirst_head hp).1] at hs
    exact .inl ⟨hs, hb, h.result_idle hb, h.poll_ended hb, hp⟩
  | true =>
    have hs := h.busy_iff.1 hb
    exact .inr ⟨hs, hb, h.result_busy hb, h.seq_command hs, h.poll_running hb, h.pfirst_head, h.retry_spent hb⟩

/-- A command runs while SEQ is not IDLE (R25). -/
theorem running_of_inv {s : State} (h : s.Inv) (hs : s.seq ≠ .idle) : Running s :=
  (ended_or_running_of_inv h).resolve_left fun he => hs he.seq

/-- The block is idle while BUSY = 0 (R25). -/
theorem ended_of_inv {s : State} (h : s.Inv) (hb : s.busy = false) : Ended s :=
  (ended_or_running_of_inv h).resolve_right fun hr => by simp [hr.busy] at hb

/-- The groups together are the invariant. -/
theorem inv_of_groups {s : State} (hr : Registers s) (hq : AtSeq s) (hc : Ended s ∨ Running s) : s.Inv where
  busy_iff := by
    rcases hc with hc | hc
    · simp [hc.busy, hc.seq]
    · simp [hc.busy, hc.seq]
  cmd_legal := hr.cmd_legal
  seq_command hs := (hc.resolve_left fun he => hs he.seq).seq_command
  result_busy hb := (hc.resolve_left fun he => by simp [he.busy] at hb).result
  result_idle hb := (hc.resolve_right fun he => by simp [he.busy] at hb).result
  poll_running hb := (hc.resolve_left fun he => by simp [he.busy] at hb).poll
  poll_ended hb := (hc.resolve_right fun he => by simp [he.busy] at hb).pollst
  pfirst_head hp := (hc.resolve_left fun he => by simp [he.pfirst] at hp).pfirst hp
  retry_spent hb := (hc.resolve_left fun he => by simp [he.busy] at hb).retry_spent
  count_le := hr.slots.count_le
  cap_le := hr.slots.cap_le
  obs_slots := hr.slots.obs_slots
  nidx_le := hr.nidx_le
  nidx_next hs := by rwa [AtSeq, hs] at hq
  nidx_wait hs := by rwa [AtSeq, hs] at hq
  note_wait hs := hr.note.trans (if_pos hs)
  note_idle hs := hr.note.trans (if_neg hs)
  queue_le := hr.queue_le
  read32_bytes hs := by rwa [AtSeq, hs] at hq
  read30_bytes hs := by rw [AtSeq, hs] at hq; exact hq.1
  take2_head hs := by rwa [AtSeq, hs] at hq
  read30_marker hs := by rw [AtSeq, hs] at hq; exact hq.2
  acquired_written hs := by rwa [AtSeq, hs] at hq

/-! ### FINISH -/

/-- FINISH goes to IDLE, where no micro-step has a clause of its own (R89). -/
theorem atSeq_of_idle {s : State} (hs : s.seq = .idle) : AtSeq s := by
  rw [AtSeq, hs]; trivial

/-- The commands under which SEQ is reached, as the running command (R25). -/
theorem Running.command_mem {s : State} (h : Running s) {q : Seq} (hs : s.seq = q) :
    ∃ c ∈ seqCommands q, s.command = some c := hs ▸ h.seq_command

/-- PFIRST is only 1 at the loop head (R42). -/
theorem Running.pfirst_of_ne {s : State} (h : Running s) (hs : s.seq ≠ .pHead) : s.pfirst = false :=
  Bool.eq_false_iff.2 fun hp => hs (h.pfirst hp).1

/-- The codes of Decode (R128). -/
theorem frameResult_mem (F : Vector Byte 32) :
    frameResult F ∈ [ResultCode.ok, .headerMismatch, .lengthMismatch, .checksumMismatch] := by
  unfold frameResult
  split
  · simp
  · split
    · simp
    · split <;> simp

/-- A running command ends with a code of its own, and a poll with the POLLST that the code stands for (R143, R92, R94). -/
theorem ends_result {s u : State} {r : ResultCode} (hrun : Running s) (h : Ends s r u) :
    ∃ c, s.command = some c ∧ r ∈ resultsOf c ∧ (c = .poll → u.pollst = pollstAfter r) := by
  cases h with
  | append hs | drop hs =>
    obtain ⟨c, hc, e⟩ := hrun.command_mem hs
    obtain rfl := List.mem_singleton.1 hc
    exact ⟨_, e, by simp [resultsOf], nofun⟩
  | noRetries hs | expired hs =>
    obtain ⟨c, hc, e⟩ := hrun.command_mem hs
    obtain rfl := List.mem_singleton.1 hc
    exact ⟨_, e, by simp [resultsOf], fun _ => rfl⟩
  | acqFailed hu hpoll =>
    cases hu with
    | short hs | shortRest hs =>
      obtain ⟨c, hc, e⟩ := hrun.command_mem hs
      obtain rfl | rfl : c = .poll ∨ c = .acquire := by simpa [seqCommands] using hc
      · exact absurd e hpoll
      · exact ⟨_, e, by simp [resultsOf], nofun⟩
    | noMarker hs =>
      obtain ⟨c, hc, e⟩ := hrun.command_mem hs
      obtain rfl | rfl | rfl : c = .poll ∨ c = .acquire ∨ c = .resync := by simpa [seqCommands] using hc
      · exact absurd e hpoll
      · exact ⟨_, e, by simp [resultsOf], nofun⟩
      · exact ⟨_, e, by simp [resultsOf], nofun⟩
  | pairFound hs hc => exact ⟨_, hc, by simp [resultsOf], nofun⟩
  | decoded hs hw hpoll =>
    have hmem := frameResult_mem s.fbuf
    obtain ⟨c, hc, e⟩ := hrun.command_mem hs
    obtain rfl | rfl | rfl : c = .poll ∨ c = .acquire ∨ c = .decode := by simpa [seqCommands] using hc
    · exact absurd e hpoll
    · exact ⟨_, e, by simp only [resultsOf, List.mem_cons] at hmem ⊢; tauto, nofun⟩
    · exact ⟨_, e, hmem, nofun⟩
  | pollNotified hs hn hc => exact ⟨_, hc, by simp [resultsOf], fun _ => rfl⟩
  | notified hs hn hpoll =>
    obtain ⟨c, hc, e⟩ := hrun.command_mem hs
    obtain rfl | rfl : c = .poll ∨ c = .notify := by simpa [seqCommands] using hc
    · exact absurd e hpoll
    · exact ⟨_, e, by simp [resultsOf], nofun⟩

/-- The registry is the same, so its clauses are. -/
theorem Slots.of_sameRegistry {s t : State} (h : Slots s) (hst : SameRegistry s t) : Slots t := by
  obtain ⟨hle, hcap, hobs⟩ := h
  constructor
  · rw [hst.count, hst.cap]; exact hle
  · rw [hst.cap]; exact hcap
  · rw [hst.count, hst.obs]; exact hobs

/-- The appended handle is not 0 and takes the first free slot (R36, R133). -/
theorem slots_append {s : State} (h : Slots s) {b : Byte} (hb : b ≠ 0) (hlt : s.count < s.cap) :
    Slots { s with obs := s.obs.setIfInBounds s.count.toNat b, count := s.count + 1 } := by
  obtain ⟨hle, hcap, hobs⟩ := h
  have hlt' : s.count.toNat < s.cap.toNat := hlt
  have hcap' : s.cap.toNat ≤ 10 := hcap
  have hadd : (s.count + 1).toNat = s.count.toNat + 1 :=
    BitVec.toNat_add_of_lt (show s.count.toNat + 1 < 16 by omega)
  refine ⟨?_, hcap, fun j => ?_⟩
  · exact hadd.trans_le hlt'
  · have hslot := hobs j
    show j.val < (s.count + 1).toNat ↔ (s.obs.setIfInBounds s.count.toNat b)[j.val] ≠ 0
    rw [hadd, Vector.getElem_setIfInBounds]
    split
    · next e => exact iff_of_true (by omega) hb
    · next e => exact Iff.trans (by omega) hslot

theorem acqStop_sameRegistry {s u : State} {r : ResultCode} (h : AcqStop s r u) : SameRegistry s u := by
  cases h <;> exact ⟨rfl, rfl, rfl⟩

theorem ends_slots {s u : State} {r : ResultCode} (h : Slots s) (he : Ends s r u) : Slots u := by
  cases he with
  | append hs ha => exact slots_append h ha.1 ha.2
  | acqFailed hu => exact h.of_sameRegistry (acqStop_sameRegistry hu)
  | _ => exact h.of_sameRegistry ⟨rfl, rfl, rfl⟩

/-- NOTE, NIDX and PFIRST are the same in both states: no failure and no end of a command by the engine touches them. -/
structure SameNotice (s t : State) : Prop where
  note : t.note = s.note
  nidx : t.nidx = s.nidx
  pfirst : t.pfirst = s.pfirst

theorem acqStop_sameNotice {s u : State} {r : ResultCode} (h : AcqStop s r u) : SameNotice s u := by
  cases h <;> exact ⟨rfl, rfl, rfl⟩

theorem ends_sameNotice {s u : State} {r : ResultCode} (h : Ends s r u) : SameNotice s u := by
  cases h with
  | acqFailed hu => exact acqStop_sameNotice hu
  | _ => exact ⟨rfl, rfl, rfl⟩

theorem acqStop_seq {s u : State} {r : ResultCode} (h : AcqStop s r u) :
    s.seq = .aSample ∨ s.seq = .rFlush ∨ s.seq = .aMark := by
  cases h with
  | short hs => exact .inl hs
  | noMarker hs => exact .inr (.inl hs)
  | shortRest hs => exact .inr (.inr hs)

/-- In IDLE and in N_WAIT the engine has no step (R22). -/
theorem moves_seq_ne {s t : State} (h : Moves s t) : s.seq ≠ .idle ∧ s.seq ≠ .nWait := by
  rcases h with ⟨r, u, h, -⟩ | h
  · cases h with
    | acqFailed hu => rcases acqStop_seq hu with hs | hs | hs <;> simp [hs]
    | _ => simp [*]
  · cases h with
    | acqRetried hu => rcases acqStop_seq hu with hs | hs | hs <;> simp [hs]
    | _ => simp [*]

/-- A command does not end before its first loop head is over (R42). -/
theorem ends_pfirst {s u : State} {r : ResultCode} (hrun : Running s) (h : Ends s r u) : s.pfirst = false := by
  cases h with
  | noRetries hs hr => exact Bool.eq_false_iff.2 fun hp => by simp [(hrun.pfirst hp).2] at hr
  | expired hs hp => exact hp
  | acqFailed hu => rcases acqStop_seq hu with hs | hs | hs <;> exact hrun.pfirst_of_ne (by simp [hs])
  | _ => exact hrun.pfirst_of_ne (by simp [*])

theorem length_le_of_drop {q q' : List Byte} (h : ∃ n, q' = q.drop n) : q'.length ≤ q.length := by
  obtain ⟨n, rfl⟩ := h
  simp

/-- FINISH with a code of the running command keeps the invariant, from any state that keeps the command's registers and
shows no notification (R89). -/
theorem finish_inv {s u : State} {r : ResultCode} (h : s.Inv) (hsame : SameCommand s u) (hslots : Slots u)
    (hnidx : u.nidx = s.nidx) (hnote : u.note = 0) (hpf : u.pfirst = false) (hqueue : u.queue.length ≤ s.queue.length)
    (hres : ∃ c, s.command = some c ∧ r ∈ resultsOf c ∧ (c = .poll → u.pollst = pollstAfter r)) : (finish r u).Inv := by
  obtain ⟨c, hc, hr, hp⟩ := hres
  have hcommand : (finish r u).command = some c := hsame.command.trans hc
  apply inv_of_groups
  · refine ⟨hslots.of_sameRegistry ⟨rfl, rfl, rfl⟩, ?_, ?_, ?_, ?_⟩
    · rw [finish_cmd, hsame.cmd]; exact h.cmd_legal
    · rw [finish_nidx, hnidx]; exact h.nidx_le
    · rw [finish_note, hnote, finish_seq, if_neg nofun]
    · rw [finish_queue, finish_chanCap, hsame.chanCap]; exact hqueue.trans h.queue_le
  · exact atSeq_of_idle rfl
  · refine .inl ⟨rfl, rfl, .inr ⟨c, hcommand, hr⟩, fun hpoll => ?_, hpf⟩
    exact hp (Option.some.inj (hcommand.symm.trans hpoll))

/-- The end of a command by the engine keeps the invariant. -/
theorem ends_inv {s u : State} {r : ResultCode} (h : s.Inv) (he : Ends s r u) : (finish r u).Inv := by
  obtain ⟨hidle, hwait⟩ := moves_seq_ne he.moves
  have hrun := running_of_inv h hidle
  have hnotice := ends_sameNotice he
  exact finish_inv h he.sameCommand (ends_slots (registers_of_inv h).slots he) hnotice.nidx
    (hnotice.note.trans (h.note_idle hwait)) (hnotice.pfirst.trans (ends_pfirst hrun he))
    (length_le_of_drop he.queue_drop) (ends_result hrun he)

/-! ### Going on to another micro-step -/

theorem goes_sameRegistry {s t : State} (h : Goes s t) : SameRegistry s t := by
  cases h with
  | acqRetried hu => exact (acqStop_sameRegistry hu).trans ⟨rfl, rfl, rfl⟩
  | read32 => rw [stepARead32_eq]; exact ⟨rfl, rfl, rfl⟩
  | read30 => rw [stepARead30_eq]; exact ⟨rfl, rfl, rfl⟩
  | _ => exact ⟨rfl, rfl, rfl⟩

/-- Only a loop head goes on with the retries and the first-head flag changed: it has spent a retry (R92). -/
theorem goes_retry {s t : State} (h : Goes s t) :
    (s.seq = .pHead ∧ s.retry ≠ 0 ∧ t.pfirst = false ∧ t.retry = s.retry - 1) ∨
      (s.seq ≠ .pHead ∧ t.pfirst = s.pfirst ∧ t.retry = s.retry) := by
  cases h with
  | firstHead hs hr hp => exact .inl ⟨hs, hr, rfl, rfl⟩
  | laterHead hs hr hp => exact .inl ⟨hs, hr, rfl, rfl⟩
  | acqRetried hu =>
    refine .inr ⟨?_, (acqStop_sameNotice hu).pfirst, by cases hu <;> rfl⟩
    rcases acqStop_seq hu with hs | hs | hs <;> simp [hs]
  | read32 hs => rw [stepARead32_eq]; exact .inr ⟨by simp [hs], rfl, rfl⟩
  | read30 hs => rw [stepARead30_eq]; exact .inr ⟨by simp [hs], rfl, rfl⟩
  | _ => exact .inr ⟨by simp [*], rfl, rfl⟩

theorem goes_pollst {s t : State} (h : Goes s t) : t.pollst = s.pollst := by
  cases h with
  | acqRetried hu => cases hu <;> rfl
  | read32 => rw [stepARead32_eq]
  | read30 => rw [stepARead30_eq]
  | _ => rfl

/-- The next micro-step is one of the running command's (R25). -/
theorem goes_seq_command {s t : State} (hrun : Running s) (h : Goes s t) :
    ∃ c ∈ seqCommands t.seq, s.command = some c := by
  cases h with
  | firstHead hs | laterHead hs =>
    obtain ⟨c, hc, e⟩ := hrun.command_mem hs
    obtain rfl := List.mem_singleton.1 hc
    refine ⟨_, ?_, e⟩
    simp only [pollIterate]
    split <;> simp [seqCommands]
  | acqRetried hu hc => exact ⟨_, by simp [seqCommands], hc⟩
  | pairTaken hs hne =>
    obtain ⟨c, hc, e⟩ := hrun.command_mem hs
    obtain rfl | rfl | rfl : c = .poll ∨ c = .acquire ∨ c = .resync := by simpa [seqCommands] using hc
    · exact ⟨_, by simp [seqCommands], e⟩
    · exact ⟨_, by simp [seqCommands], e⟩
    · exact absurd e hne
  | sampledMore hs =>
    obtain ⟨c, hc, e⟩ := hrun.command_mem hs
    exact ⟨c, List.mem_of_mem_dropLast (by simpa [seqCommands] using hc), e⟩
  | read32 hs =>
    obtain ⟨c, hc, e⟩ := hrun.command_mem hs
    rw [stepARead32_eq]
    exact ⟨c, List.mem_of_mem_dropLast (by simpa [seqCommands] using hc), e⟩
  | read30 hs =>
    obtain ⟨c, hc, e⟩ := hrun.command_mem hs
    rw [stepARead30_eq]
    exact ⟨c, List.mem_of_mem_dropLast (by simpa [seqCommands] using hc), e⟩
  | decodedOk hs hc => exact ⟨_, by simp [seqCommands], hc⟩
  | decodedBad hs hc => exact ⟨_, by simp [seqCommands], hc⟩
  | sampledFrame hs | scanEnded hs | scanMarker hs | scanOther hs | peekPair hs | peekOther hs | marked hs | notify hs =>
    have hrow := hrun.command_mem hs
    exact hrow

theorem goes_running {s t : State} (hrun : Running s) (h : Goes s t) : Running t := by
  have hsame := h.sameCommand
  have hpf : t.pfirst = false := by
    rcases goes_retry h with ⟨-, -, hp, -⟩ | ⟨hs, hp, -⟩
    · exact hp
    · exact hp.trans (hrun.pfirst_of_ne hs)
  refine ⟨h.seq_ne_idle, hsame.busy.trans hrun.busy, hsame.result.trans hrun.result, ?_, ?_, ?_, ?_⟩
  · rw [hsame.command]; exact goes_seq_command hrun h
  · rw [hsame.command, goes_pollst h, hsame.timer]; exact hrun.poll
  · exact fun hp => by simp [hpf] at hp
  · rw [hsame.command]
    intro hc _
    rcases goes_retry h with ⟨-, hr, -, hretry⟩ | ⟨hs, -, hretry⟩
    · rw [hretry]; bv_omega
    · rw [hretry]; exact hrun.retry_spent hc (hrun.pfirst_of_ne hs)

/-- The notification fields at the next micro-step: NIDX stays in its range, and NOTE shows what is pending (R41, R34). -/
theorem goes_note {s t : State} (hreg : Registers s) (h : Goes s t) :
    t.nidx ≤ 10 ∧ t.note = if t.seq = .nWait then noteWord t.nidx (t.obsAt t.nidx.toNat) else 0 := by
  have hnote : s.note = 0 := hreg.note.trans (if_neg (moves_seq_ne h.moves).2)
  have hnidx := hreg.nidx_le
  cases h with
  | firstHead | laterHead =>
    refine ⟨hnidx, hnote.trans (if_neg ?_).symm⟩
    simp only [pollIterate]
    split <;> simp
  | acqRetried hu =>
    have hsame := acqStop_sameNotice hu
    exact ⟨hsame.nidx.symm ▸ hnidx, hsame.note.trans hnote⟩
  | read32 => rw [stepARead32_eq]; exact ⟨hnidx, hnote⟩
  | read30 => rw [stepARead30_eq]; exact ⟨hnidx, hnote⟩
  | decodedOk => exact ⟨show (0 : BitVec 4) ≤ 10 by decide, hnote⟩
  | notify => exact ⟨hnidx, (if_pos rfl).symm⟩
  | _ => exact ⟨hnidx, hnote⟩

theorem goes_registers {s t : State} (hreg : Registers s) (h : Goes s t) : Registers t := by
  have hsame := h.sameCommand
  obtain ⟨hnidx, hnote⟩ := goes_note hreg h
  refine ⟨hreg.slots.of_sameRegistry (goes_sameRegistry h), ?_, hnidx, hnote, ?_⟩
  · rw [hsame.cmd]; exact hreg.cmd_legal
  · rw [hsame.chanCap]; exact (length_le_of_drop h.queue_drop).trans hreg.queue_le

/-- The 32-byte read marks the whole frame as written (R103, R107). -/
theorem stepARead32_written {s : State} (hq : 32 ≤ s.queue.length) (i : Fin 32) : (stepARead32 s).written[i] = true := by
  have hlen : (s.queue.take 32).length = 32 := List.length_take_of_le hq
  exact (storeFrameBytes_written_getElem (s.queue.take 32) 0 (chReadBytesRest 32 s) i i.isLt).trans
    (if_pos (by omega))

/-- The 30-byte read behind a placed marker marks the rest of the frame as written (R105, R107). -/
theorem stepARead30_written {s : State} (hq : 30 ≤ s.queue.length) (h0 : s.written[0] = true)
    (h1 : s.written[1] = true) (i : Fin 32) : (stepARead30 s).written[i] = true := by
  have hlen : (s.queue.take 30).length = 30 := List.length_take_of_le hq
  refine (storeFrameBytes_written_getElem (s.queue.take 30) 2 (chReadBytesRest 30 s) i i.isLt).trans ?_
  split
  · rfl
  · obtain h | h : i.val = 0 ∨ i.val = 1 := by omega
    · simpa [h] using h0
    · simpa [h] using h1

/-- The micro-step that is gone to finds what it needs: its bytes, its marker, its slot (R61, R104, R107, R112, R138). -/
theorem goes_atSeq {s t : State} (hq : AtSeq s) (h : Goes s t) : AtSeq t := by
  cases h with
  | firstHead | laterHead =>
    unfold pollIterate
    split <;> exact trivial
  | sampledFrame hs hlen => exact hlen.ge
  | read32 hs =>
    rw [AtSeq, hs] at hq
    have hw := stepARead32_written hq
    rw [stepARead32_eq]
    exact fun _ => hw
  | peekPair hs hhead => exact hhead
  | marked hs hlen =>
    rw [placeMarker_eq]
    exact ⟨hlen, by simp⟩
  | read30 hs =>
    rw [AtSeq, hs] at hq
    obtain ⟨hlen, -, -, h0, h1⟩ := hq
    have hw := stepARead30_written hlen h0 h1
    rw [stepARead30_eq]
    exact fun _ => hw
  | decodedOk => exact Nat.zero_le s.count.toNat
  | notify hs hn =>
    rw [AtSeq, hs] at hq
    exact Nat.lt_of_le_of_ne hq fun e => hn (BitVec.eq_of_toNat_eq e)
  | acqRetried | sampledMore | scanEnded | scanMarker | scanOther | peekOther | pairTaken | decodedBad => exact trivial

/-- Going on to another micro-step keeps the invariant. -/
theorem goes_inv {s t : State} (h : s.Inv) (hg : Goes s t) : t.Inv := by
  have hreg := registers_of_inv h
  have hrun := running_of_inv h (moves_seq_ne hg.moves).1
  exact inv_of_groups (goes_registers hreg hg) (goes_atSeq (atSeq_of_inv h) hg) (.inr (goes_running hrun hg))

theorem engineStep_inv {s t : State} (h : s.Inv) (he : engineStep s = .next t) : t.Inv := by
  rcases engineStep_next he with ⟨-, rfl⟩ | ⟨r, u, hends, rfl⟩ | hg
  · exact h
  · exact ends_inv h hends
  · exact goes_inv h hg

/-! ### The host, the producer and reset -/

/-- The turns to come and the host's reply are no part of the invariant. -/
theorem inv_congr {s : State} (h : s.Inv) (ts : List Turn) (l : Later) (v : Option Word) :
    State.Inv { s with turns := ts, later := l, busReply := v } := by
  cases h; constructor <;> assumption

theorem spendTurn_inv {s : State} (h : s.Inv) : (spendTurn s).Inv := by
  rw [spendTurn_eq]
  exact inv_congr h _ _ _

/-- The state that an accepted word leaves: the command's entry is done in the same step (R88). -/
def accepted (d : Word) (c : Command) (s : State) : State :=
  entryOf c { s with cmd := d, result := .none, busy := true }

theorem accepted_command {d : Word} {c : Command} (hc : checkCmd d = .ok c) (s : State) :
    (accepted d c s).command = some c := by
  rw [State.command, accepted, entryOf_cmd]
  exact commandOf_eq_some.2 (checkCmd_eq_ok.1 hc).1

theorem accepted_seq (d : Word) (c : Command) (s : State) : (accepted d c s).seq = firstSeq c := entryOf_seq ..

theorem firstSeq_mem (c : Command) : c ∈ seqCommands (firstSeq c) := by cases c <;> decide

theorem accepted_sameRegistry (d : Word) (c : Command) (s : State) : SameRegistry s (accepted d c s) := by
  cases c <;> exact ⟨rfl, rfl, rfl⟩

/-- An accepted word leaves NOTE and the channel, and NIDX but for NOTIFY, which starts at slot 0 (R137). -/
theorem accepted_registers {s : State} {d : Word} {c : Command} (h : Registers s) (hs : s.seq = .idle)
    (hc : checkCmd d = .ok c) : Registers (accepted d c s) := by
  have hnote : s.note = 0 := h.note.trans (if_neg (by simp [hs]))
  have hlegal : cmdLegal d = true := by simp only [cmdLegal, hc]
  have hzero : (0 : BitVec 4) ≤ 10 := by decide
  refine ⟨h.slots.of_sameRegistry (accepted_sameRegistry d c s), ?_, ?_, ?_, ?_⟩
  · rw [accepted, entryOf_cmd]; exact hlegal
  · cases c with
    | notify => exact hzero
    | _ => exact h.nidx_le
  · cases c <;> exact hnote
  · cases c <;> exact h.queue_le

/-- The first micro-step of a command needs nothing that its entry does not give. -/
theorem accepted_atSeq {d : Word} {c : Command} (hc : checkCmd d = .ok c) (s : State) : AtSeq (accepted d c s) := by
  have hcommand := accepted_command hc s
  cases c with
  | decode => exact fun hne => absurd hcommand hne
  | notify => exact Nat.zero_le s.count.toNat
  | _ => trivial

/-- The first micro-step runs under its command, and only POLL's entry sets the poll's fields (R91). -/
theorem accepted_running {s : State} {d : Word} {c : Command} (hpf : s.pfirst = false) (hc : checkCmd d = .ok c) :
    Running (accepted d c s) := by
  have hcommand := accepted_command hc s
  have hbusy : (accepted d c s).busy = true := entryOf_busy ..
  have hresult : (accepted d c s).result = .none := entryOf_result ..
  have hpoll (e : (accepted d c s).command = some .poll) : c = .poll := Option.some.inj (hcommand.symm.trans e)
  refine ⟨?_, hbusy, hresult, ⟨c, ?_, hcommand⟩, fun e => ?_, fun e => ?_, fun e hp => ?_⟩
  · rw [accepted_seq]; cases c <;> nofun
  · rw [accepted_seq]; exact firstSeq_mem c
  · obtain rfl := hpoll e; exact ⟨rfl, rfl⟩
  · cases c with
    | poll => exact ⟨rfl, rfl⟩
    | _ => exact absurd (hpf.symm.trans e) nofun
  · obtain rfl := hpoll e; cases hp

/-- A command from idle starts within the invariant (R88). -/
theorem accepted_inv {s : State} {d : Word} {c : Command} (h : s.Inv) (hb : s.busy = false) (hc : checkCmd d = .ok c) :
    (accepted d c s).Inv := by
  have hend := ended_of_inv h hb
  exact inv_of_groups (accepted_registers (registers_of_inv h) hend.seq hc) (accepted_atSeq hc s)
    (.inr (accepted_running hend.pfirst hc))

/-- NOTE shows PEND only while the engine waits for the answer (R34). -/
theorem seq_of_notePend {s : State} (h : s.Inv) (hp : notePend s = true) : s.seq = .nWait := by
  by_contra hs
  simp [notePend, h.note_idle hs] at hp

/-- The next slot, once one was notified, is at most COUNT (R138, R139). -/
theorem nidx_add_one_le {s : State} (h : s.Inv) (hs : s.seq = .nWait) : s.nidx + 1 ≤ s.count ∧ s.nidx + 1 ≤ 10 := by
  have hlt : s.nidx.toNat < s.count.toNat := h.nidx_wait hs
  have hle : s.count.toNat ≤ s.cap.toNat := h.count_le
  have hcap : s.cap.toNat ≤ 10 := h.cap_le
  have hadd : (s.nidx + 1).toNat = s.nidx.toNat + 1 := BitVec.toNat_add_of_lt (show s.nidx.toNat + 1 < 16 by omega)
  exact ⟨hadd.trans_le hlt, hadd.trans_le (by show s.nidx.toNat + 1 ≤ 10; omega)⟩

theorem ackReturned_inv {s : State} (h : s.Inv) (hp : notePend s = true) : (ackReturned s).Inv := by
  have hs := seq_of_notePend h hp
  have hreg := registers_of_inv h
  have hrun := running_of_inv h (by simp [hs])
  have hrow := hrun.command_mem hs
  have hpf := hrun.pfirst_of_ne (by simp [hs])
  obtain ⟨hcount, hten⟩ := nidx_add_one_le h hs
  exact inv_of_groups ⟨hreg.slots.of_sameRegistry ⟨rfl, rfl, rfl⟩, h.cmd_legal, hten, rfl, h.queue_le⟩ hcount
    (.inr ⟨nofun, hrun.busy, hrun.result, hrow, hrun.poll, fun hp => absurd (hpf.symm.trans hp) nofun, hrun.retry_spent⟩)

/-- The commands that notify may end with CallbackError, which a poll does ATTEMPTING (R139, R143). -/
theorem callbackError_result {s : State} (h : s.Inv) (hs : s.seq = .nWait) :
    ∃ c, s.command = some c ∧ .callbackError ∈ resultsOf c ∧ (c = .poll → s.pollst = pollstAfter .callbackError) := by
  have hrun := running_of_inv h (by simp [hs])
  obtain ⟨c, hc, e⟩ := hrun.command_mem hs
  obtain rfl | rfl : c = .poll ∨ c = .notify := by simpa [seqCommands] using hc
  · exact ⟨_, e, by simp [resultsOf], fun _ => (hrun.poll e).1⟩
  · exact ⟨_, e, by simp [resultsOf], nofun⟩

theorem ackRaised_inv {s : State} (h : s.Inv) (hp : notePend s = true) : (ackRaised s).Inv := by
  have hs := seq_of_notePend h hp
  have hpf := (running_of_inv h (by simp [hs])).pfirst_of_ne (by simp [hs])
  exact finish_inv (u := { s with note := 0 }) h ⟨rfl, rfl, rfl, rfl, rfl, rfl⟩
    ((registers_of_inv h).slots.of_sameRegistry ⟨rfl, rfl, rfl⟩) rfl rfl hpf le_rfl (callbackError_result h hs)

theorem setFrameByte_inv {s : State} (h : s.Inv) (hb : s.busy = false) (i : Nat) (b : Byte) : (setFrameByte i b s).Inv := by
  have hreg := registers_of_inv h
  have hend := ended_of_inv h hb
  exact inv_of_groups ⟨hreg.slots.of_sameRegistry ⟨rfl, rfl, rfl⟩, h.cmd_legal, h.nidx_le, hreg.note, h.queue_le⟩
    (atSeq_of_idle hend.seq) (.inl ⟨hend.seq, hb, hend.result, hend.pollst, hend.pfirst⟩)

theorem exec_inv {i : Instr} {s t : State} (h : s.Inv) (he : exec i s = .next t) : t.Inv := by
  rcases exec_next he with ⟨c, d, hc, hb, rfl⟩ | ⟨hp, rfl⟩ | ⟨hp, rfl⟩ | ⟨i, b, hb, rfl⟩ | ⟨v, rfl⟩ | rfl
  · exact accepted_inv h hb hc
  · exact ackReturned_inv h hp
  · exact ackRaised_inv h hp
  · exact setFrameByte_inv h hb i b
  · exact inv_congr h _ _ _
  · exact h

/-- More bytes at the tail take nothing from a micro-step that waits for some (R54, R61). -/
theorem atSeq_append {s : State} (h : s.Inv) (b : Byte) : AtSeq { s with queue := s.queue ++ [b] } := by
  have hq := atSeq_of_inv h
  unfold AtSeq at hq ⊢
  dsimp only
  generalize s.seq = q at hq ⊢
  cases q with
  | aRead32 => exact hq.trans (by simp)
  | aRead30 => exact ⟨hq.1.trans (by simp), hq.2⟩
  | rTake2 => rw [List.head?_append, hq]; rfl
  | _ => exact hq

theorem chAppend_inv {s : State} (h : s.Inv) (b : Byte) : (chAppend b s).Inv := by
  unfold chAppend
  split
  · next hroom =>
    have hreg := registers_of_inv h
    refine inv_of_groups ⟨hreg.slots.of_sameRegistry ⟨rfl, rfl, rfl⟩, h.cmd_legal, h.nidx_le, hreg.note, ?_⟩
      (atSeq_append h b) ((ended_or_running_of_inv h).imp (fun he => ?_) fun hr => ?_)
    · simpa using hroom
    · obtain ⟨hs, hb, hres, hpoll, hpf⟩ := he
      exact ⟨hs, hb, hres, hpoll, hpf⟩
    · obtain ⟨hs, hb, hres, hrow, hpoll, hpf, hretry⟩ := hr
      exact ⟨hs, hb, hres, hrow, hpoll, hpf, hretry⟩
  · exact h

theorem capOf_le (reqMax : Nat) : Config.capOf reqMax ≤ 10 := by
  have hmod : min reqMax 10 % 16 ≤ 10 := by omega
  exact hmod

/-- Reset leaves a block that is idle with an empty registry, beside the channel as it was (R159, R160). -/
theorem resetSignal_inv (reqMax : Nat) {s : State} (hq : s.queue.length ≤ s.chanCap) : (resetSignal reqMax s).Inv := by
  have hslots : Slots (resetSignal reqMax s) :=
    ⟨Nat.zero_le _, capOf_le reqMax, fun j => iff_of_false (Nat.not_lt_zero _) (by simp)⟩
  exact inv_of_groups ⟨hslots, rfl, Nat.zero_le _, rfl, hq⟩ (atSeq_of_idle rfl)
    (.inl ⟨rfl, rfl, .inl ⟨rfl, rfl⟩, nofun, rfl⟩)

/-! ### Every step -/

/-- Settles O40, agent by agent; a turn that passes changes only the turns to come. -/
theorem stepKeepsInvariant : Obligations.StepKeepsInvariant := by
  intro s t hinv hstep
  have hu := spendTurn_inv hinv
  obtain ⟨-, h⟩ := step_next hstep
  rcases h with ⟨-, -, rfl⟩ | ⟨-, -, h⟩ | ⟨w, -, -, rfl⟩ | ⟨w, i, -, -, -, h⟩ | ⟨b, -, rfl⟩ | ⟨r, -, rfl⟩
  · exact hu
  · exact engineStep_inv hu h
  · exact hu
  · exact exec_inv hu h
  · exact chAppend_inv hu b
  · exact resetSignal_inv r hu.queue_le

/-- The start of a run is a reset of itself (R159). -/
theorem powerOn_eq_resetSignal (reqMax chanCap : Nat) :
    State.powerOn reqMax chanCap = resetSignal reqMax (State.powerOn reqMax chanCap) := rfl

/-- Settles O41: the start of a run is what reset leaves, beside an empty channel. -/
theorem invariantAtPowerOn : Obligations.InvariantAtPowerOn := by
  intro reqMax chanCap
  rw [powerOn_eq_resetSignal]
  exact resetSignal_inv reqMax (Nat.zero_le chanCap)

end Sys2Proof.Invariant
end

section
/-! What single turns and instructions do (R22, R82, R88, R92, R120, R132 to R139, R145 to R147): the step as the turn it
takes, and the branches of each instruction and micro-step as the state they leave. -/

namespace Sys2Proof.SingleStep

open Machine Laws HostAccess Transactions Registry Engine Invariant

/-! ### Turns -/

/-- The host's next turn runs the instruction that its transaction decodes to (R22, R76). -/
theorem step_host_ok {s : State} {w : Hbt} {i : Instr} (hr : s.refused = false) (hh : s.hostHalted = false)
    (hn : nextTurn s = .host w) (hd : decodeHbt w = .ok i) : step s = exec i (spendTurn s) := by
  rw [step_eq hr, hn, runTurn, hostTurn_ok ((spendTurn_hostHalted s).trans hh) hd]

/-- The host's next turn is refused when its transaction is rejected (R77, R147). -/
theorem step_host_reject {s : State} {w : Hbt} {e : DecodeError} (hr : s.refused = false) (hh : s.hostHalted = false)
    (hn : nextTurn s = .host w) (hd : decodeHbt w = .reject e) : step s = .refused (rejection e (spendTurn s)) := by
  rw [step_eq hr, hn, runTurn, hostTurn_reject ((spendTurn_hostHalted s).trans hh) hd]

/-- The engine's next turn is its micro-step (R22). -/
theorem step_engine {s : State} (hr : s.refused = false) (he : s.engineHalted = false) (hn : nextTurn s = .engine) :
    step s = engineStep (spendTurn s) := by
  rw [step_eq hr, hn, runTurn, engineTurn_eq ((spendTurn_engineHalted s).trans he)]

/-- A halted host lets its turn pass (R146). -/
theorem step_host_halted {s : State} {w : Hbt} (hr : s.refused = false) (hh : s.hostHalted = true)
    (hn : nextTurn s = .host w) : step s = .next (spendTurn s) := by
  rw [step_eq hr, hn, runTurn, hostTurn, if_pos ((spendTurn_hostHalted s).trans hh)]

/-- A halted engine lets its turn pass (R146). -/
theorem step_engine_halted {s : State} (hr : s.refused = false) (he : s.engineHalted = true)
    (hn : nextTurn s = .engine) : step s = .next (spendTurn s) := by
  rw [step_eq hr, hn, runTurn, engineTurn, if_pos ((spendTurn_engineHalted s).trans he)]

/-- Settles O8: the next turn is spent and run; a listed one is spent by taking it off the list. -/
theorem stepRunsDecodedInstruction : Obligations.StepRunsDecodedInstruction := by
  intro s w i hr hh hn hd
  have hstep := step_host_ok hr hh hn hd
  refine ⟨hstep, fun rest hts => ?_⟩
  rw [hstep, (turn_of_listed hts).2]

/-- Spending a turn changes no refusal: it rests on BUSY and NOTE (R147). -/
theorem rejection_spendTurn (e : DecodeError) (s : State) : rejection e (spendTurn s) = rejection e s := by
  cases e <;> simp [rejection, notePend]

/-- Settles O9: each clause is the rejection's own case. -/
theorem stepRefusesRejectedTransaction : Obligations.StepRefusesRejectedTransaction := by
  intro s w hr hh hn
  have refuse (e : DecodeError) (hd : decodeHbt w = .reject e) : step s = .refused (rejection e s) := by
    rw [step_host_reject hr hh hn hd, rejection_spendTurn]
  exact ⟨refuse _, refuse _, refuse _, refuse _, refuse _⟩

/-- A table word that decodes is carried by a transaction that does (R79). -/
theorem tableHbt_of_decodeTableWord {nbits w : Nat} {i : Instr} (h : decodeTableWord nbits w = some i) :
    ∃ x, tableHbt nbits w = some x ∧ decodeHbt x = .ok i := by
  unfold decodeTableWord at h
  split at h
  · cases h
  · next x hx =>
    split at h
    · next hd => cases h; exact ⟨x, hx, hd⟩
    · cases h

/-- Settles O12: the placed transaction is the first turn listed, and taking it off gives the state back. -/
theorem placedTableWordRunsNext : Obligations.PlacedTableWordRunsNext := by
  intro s nbits w i hr hh hd
  obtain ⟨x, hx, hok⟩ := tableHbt_of_decodeTableWord hd
  rw [State.withFetchWord, hx]
  exact (stepRunsDecodedInstruction { s with turns := .host x :: s.turns } x i hr hh rfl hok).2 s.turns rfl

/-- Settles O13, from the engine's turn, however it is listed. -/
theorem engineTurnRunsMicroStep : Obligations.EngineTurnRunsMicroStep := by
  intro s hr he
  refine ⟨step_engine hr he, fun hts hl => ?_, fun rest hts => ?_, fun hs => ?_⟩
  · rw [step_of_no_turn hr hts hl, engineTurn_eq he]
  · exact (step_of_turn hr hts).trans (engineTurn_eq he)
  · rcases hs with hs | hs <;> rw [engineStep, hs]

/-- Settles O50: a halted agent's turn is spent and nothing else, and spending takes a listed turn off the list. -/
theorem faultedAgentTakesNoStep : Obligations.FaultedAgentTakesNoStep := by
  intro s hr
  refine ⟨fun w => step_host_halted hr, step_engine_halted hr, fun he hts hl => ?_, fun w rest hh hts => ?_,
    fun rest he hts => ?_⟩
  · obtain ⟨hn, hspend⟩ := turn_of_engine_later hts hl
    rw [step_engine_halted hr he hn, hspend]
  · obtain ⟨hn, hspend⟩ := turn_of_listed hts
    rw [step_host_halted hr hh hn, hspend]
  · obtain ⟨hn, hspend⟩ := turn_of_listed hts
    rw [step_engine_halted hr he hn, hspend]

/-- The word of a STATUS that is all at its reset value (R28). -/
theorem statusWord_resetSignal (n : Nat) (s : State) : statusWord (resetSignal n s) = 0 :=
  BitVec.eq_of_toNat_eq (statusWord_toNat (resetSignal n s))

theorem capOf_toNat (reqMax : Nat) : (Config.capOf reqMax).toNat = min reqMax 10 :=
  Nat.mod_eq_of_lt (show min reqMax 10 < 16 by omega)

/-- Settles O47: field by field, what reset writes and what it keeps of the state whose turn is spent. -/
theorem resetSignalSetsEveryRegister : Obligations.ResetSignalSetsEveryRegister := by
  intro s r hr hn
  have hstep : step s = .next (resetSignal r (spendTurn s)) := by rw [step_eq hr, hn, runTurn]
  refine ⟨_, hstep, ?_⟩
  simp only [resetSignal_cmd, statusWord_resetSignal, resetSignal_cap, capOf_toNat]
  simp

/-! ### Reads -/

/-- RD of a mapped address reads its register (R82). -/
theorem exec_rd (r : Reg) (s : State) : exec (.rd (regAddr r)) s = readReg r s := by
  rw [exec, execRd, regAt_regAddr]

/-- OBS slots from COUNT up are empty (R36). -/
theorem obs_of_count_le {s : State} (h : s.Inv) {j : Fin 10} (hj : s.count.toNat ≤ j.val) : s.obs[j] = 0 := by
  by_contra hne
  exact absurd ((h.obs_slots j).2 hne) (by omega)

/-- Without PEND the whole of NOTE is 0 (R34). -/
theorem note_of_not_pend {s : State} (h : s.Inv) (hp : s.note.getLsbD 15 = false) : s.note = 0 := by
  by_cases hs : s.seq = .nWait
  · have hpend := notePend_noteWord s _ _ (h.note_wait hs)
    exact absurd (hp.symm.trans hpend) nofun
  · exact h.note_idle hs

/-- Settles O14, register by register; the last two clauses are the invariant's of OBS and of NOTE. -/
theorem rdReturnsTheRegister : Obligations.RdReturnsTheRegister := by
  intro s
  have obs (j : Fin 10) : exec (.rd (BitVec.ofNat 8 (0x10 + j.val))) s =
      .next { s with busReply := some (s.obs[j].setWidth 16) } := exec_rd (.obs j) s
  refine ⟨exec_rd .cmd s, ⟨_, exec_rd .status s, statusWord_toNat s⟩, ⟨_, exec_rd .config s, configWord_toNat s⟩,
    exec_rd .note s, exec_rd .ack s, obs, fun i hw => ?_, fun i hw => ?_, fun k => exec_rd (.meas k) s, fun a ha => ?_,
    fun h j hj => ?_, fun h hp => ?_⟩
  · exact (exec_rd (.fbuf i) s).trans (if_neg (by simp [hw]))
  · exact (exec_rd (.fbuf i) s).trans (if_pos hw)
  · rw [exec, execRd, ha]
  · rw [obs, obs_of_count_le h hj]; rfl
  · rw [← note_of_not_pend h hp]; exact exec_rd .note s

/-! ### Commands and acknowledgements -/

/-- Settles O20: each is an accepted word whose entry sets SEQ alone. -/
theorem acquireResyncDecodeStart : Obligations.AcquireResyncDecodeStart := by
  intro s hb
  exact ⟨execCommand_next hb, execCommand_next hb, execCommand_next hb⟩

/-- Settles O21: each is an accepted word; REGISTER's carries the handle above its OP. -/
theorem registerNotifyStart : Obligations.RegisterNotifyStart := by
  intro s hb
  refine ⟨fun h => ⟨_, execCommand_next hb, ?_, rfl⟩, execCommand_next hb⟩
  exact (mkCmd_toNat h 0x5).trans (by rw [Nat.add_comm, Nat.mul_comm]; rfl)

/-- Settles O22: the two rows are writes to ACK of their words, which PEND and then the word decide. -/
theorem ackAnswersThePendingNotification : Obligations.AckAnswersThePendingNotification := by
  intro s
  simp only [exec_ackDone_eq, exec_ackError_eq, exec_wr_ack]
  refine ⟨fun hp => ?_, fun hp => ?_⟩
  · have refuse (d : Word) : ackWrite d s = .refused .noPendingNotification := if_pos hp
    exact ⟨refuse _, refuse _, refuse⟩
  · have hp : notePend s = true := hp
    have answer (d : Word) : ackWrite d s =
        if d = 0x0001 then .next (ackReturned s)
        else if d = 0x0002 then .next (ackRaised s) else .refused .reservedAckCode := if_neg (by simp [hp])
    refine ⟨answer _, answer _, trivial, trivial, fun d h1 h2 => ?_⟩
    rw [answer, if_neg h1, if_neg h2]

/-! ### Micro-steps -/

theorem handle_eq_ofNat (s : State) : s.handle = BitVec.ofNat 8 (s.cmd.toNat / 256) := (ofNat_div_eq_cmdArg s.cmd).symm

theorem handle_eq_zero_iff {s : State} : s.handle = 0 ↔ s.cmd.toNat / 256 = 0 := cmdArg_eq_zero_iff

/-- Settles O24, by the test of ⟨G_EXEC⟩: a handle and a free slot, or not. -/
theorem registerAppendsOrDrops : Obligations.RegisterAppendsOrDrops := by
  intro s hs _
  rw [engineStep_gExec hs]
  refine ⟨fun hslot hh hlt => ?_, fun h => ?_⟩
  · rw [stepGExec_of_append ⟨mt handle_eq_zero_iff.1 hh, hlt⟩, setIfInBounds_eq_set _ _ _ hslot, handle_eq_ofNat, finish]
  · rw [stepGExec_of_drop fun ha => h.elim (fun h0 => ha.1 (handle_eq_zero_iff.2 h0)) fun hfull => hfull ha.2, finish]

/-- Settles O25, by the tests of the loop head: the retries, the first head, and the draw, listed or free. -/
theorem pollHeadRetriesOrEnds : Obligations.PollHeadRetriesOrEnds := by
  intro s hs
  dsimp only
  rw [engineStep_pHead hs]
  refine ⟨fun hr => ?_, fun hr hp => ?_, fun ds hr hp hd => ?_, fun ds hr hp hd => ?_, fun hr hp hd => ?_⟩
  · rw [stepPHead_of_retry_zero hr]; rfl
  · rw [stepPHead_of_first hr hp]; rfl
  · rw [stepPHead_of_later hr hp, drawValue, drawTaken, hd]; rfl
  · rw [stepPHead_of_later hr hp, drawValue, drawTaken, hd]; rfl
  · rw [stepPHead_of_later hr hp, drawTaken, hd]
    split
    · exact .inl rfl
    · exact .inr rfl

/-- Settles O35, by whether a byte of FBUF holds no value; the command routes the result of a decode. -/
theorem decodeStepRoutesResult : Obligations.DecodeStepRoutesResult := by
  intro s hs
  rw [engineStep_dExec hs]
  refine ⟨fun ⟨i, hi⟩ => ?_, fun hw => ?_⟩
  · rcases hu : someUnwritten s.written with _ | j
    · exact absurd (someUnwritten_eq_none.1 hu i) (by simp [hi])
    · exact ⟨j, someUnwritten_eq_some hu, stepDExec_of_unwritten hu⟩
  · rw [stepDExec_of_written hw]
    refine ⟨fun hc => ?_, fun hc hF => ?_, fun hc hF => ?_⟩
    · have hpoll : s.command ≠ some .poll := by rcases hc with hc | hc <;> simp [hc]
      exact congrArg _ (if_neg hpoll)
    · exact congrArg _ ((if_pos hc).trans (if_pos hF))
    · exact congrArg _ ((if_pos hc).trans (if_neg hF))

/-- A D_EXEC that answers found every byte written (R120). -/
theorem written_of_dExec_next {s t : State} (hs : s.seq = .dExec) (h : engineStep s = .next t) (i : Fin 32) :
    s.written[i] = true := by
  rw [engineStep_dExec hs] at h
  rcases hu : someUnwritten s.written with _ | j
  · exact someUnwritten_eq_none.1 hu i
  · rw [stepDExec_of_unwritten hu] at h; cases h

/-- Settles O39: both steps are the decoder's on the same frame. -/
theorem decodeDependsOnFrameOnly : Obligations.DecodeDependsOnFrameOnly := by
  intro s s' t t' hs hs' hc hc' hF h h'
  have run {s t : State} (hs : s.seq = .dExec) (hc : s.command = some .decode) (h : engineStep s = .next t) :
      t = finish (frameResult s.fbuf) { s with meas := frameMeas s.fbuf } := by
    have hrun := ((decodeStepRoutesResult s hs).2 (written_of_dExec_next hs h)).1 (.inl hc)
    cases h.symm.trans hrun; rfl
  rw [run hs hc h, run hs' hc' h', hF]
  exact ⟨rfl, rfl, rfl, rfl⟩

/-! ### Reordered frames -/

/-- The bytes of a frame by its four parts: the marker and length, the body, and the checksum field (R117). -/
theorem byteSum_frame_split (F : Vector Byte 32) : ((F.toList.take 30).map BitVec.toNat).sum =
    ((F.toList.take 4).map BitVec.toNat).sum + (((F.toList.drop 4).take 26).map BitVec.toNat).sum := by
  rw [show (30 : Nat) = 4 + 26 from rfl, List.take_add, List.map_append, List.sum_append]

/-- Equal lists of bytes give equal bytes, at every offset inside. -/
theorem getElem_eq_of_take_eq {F G : Vector Byte 32} {n : Nat} (h : G.toList.take n = F.toList.take n) {i : Nat}
    (hi : i < n) (hi32 : i < 32) : G[i] = F[i] := by
  have hget := congrArg (·[i]?) h
  simpa [List.getElem?_take, hi, hi32] using hget

theorem getElem_eq_of_drop_eq {F G : Vector Byte 32} {n : Nat} (h : G.toList.drop n = F.toList.drop n) {i : Nat}
    (hi : n ≤ i) (hi32 : i < 32) : G[i] = F[i] := by
  have hget := congrArg (·[i - n]?) h
  simpa [List.getElem?_drop, Nat.add_sub_of_le hi, hi32] using hget

/-- Settles O38: the checks read the marker, the length, the checksum field and the sum, and a reordering keeps them all. -/
theorem reorderedBytesStillDecode : Obligations.ReorderedBytesStillDecode := by
  intro F G hF hhead htail hperm
  have hsum : ((G.toList.take 30).map BitVec.toNat).sum = ((F.toList.take 30).map BitVec.toNat).sum := by
    rw [byteSum_frame_split, byteSum_frame_split, hhead, (hperm.map BitVec.toNat).sum_eq]
  have head {i : Nat} (hi : i < 4) : G[i] = F[i] := getElem_eq_of_take_eq hhead hi (by omega)
  have tail {i : Nat} (hi : 30 ≤ i) (hi32 : i < 32) : G[i] = F[i] := getElem_eq_of_drop_eq htail hi hi32
  rw [frameResult_eq_ok] at hF ⊢
  rw [head (by omega), head (by omega), head (by omega), head (by omega), tail (by omega), tail (by omega), hsum]
  exact hF

end Sys2Proof.SingleStep
end

section
/-! Rules over every step (R27 to R32, R39, R54, R139 to R146): which turn can change a register, how a command ends, what a
pending notification holds still, and the marks of a run. -/

namespace Sys2Proof.EveryStep

open Machine Laws HostAccess Transactions Registry Engine Invariant SingleStep

/-! ### The cases of a step -/

/-- A step that answers, with the engine's micro-step by its branch: a turn passes, the command ends or goes on, the host
runs an instruction, the producer appends, or reset is asserted. -/
theorem step_cases {s t : State} (h : step s = .next t) :
    ((nextTurn s = .engine ∨ ∃ w, nextTurn s = .host w) ∧ t = spendTurn s) ∨
      (nextTurn s = .engine ∧ ∃ r u, Ends (spendTurn s) r u ∧ t = finish r u) ∨
      (nextTurn s = .engine ∧ Goes (spendTurn s) t) ∨
      (∃ w i, nextTurn s = .host w ∧ decodeHbt w = .ok i ∧ exec i (spendTurn s) = .next t) ∨
      (∃ b, nextTurn s = .producer b ∧ t = chAppend b (spendTurn s)) ∨
      (∃ r, nextTurn s = .reset r ∧ t = resetSignal r (spendTurn s)) := by
  obtain ⟨-, h⟩ := step_next h
  rcases h with ⟨hn, -, rfl⟩ | ⟨hn, -, h⟩ | ⟨w, hn, -, rfl⟩ | ⟨w, i, hn, -, hd, h⟩ | ⟨b, hn, rfl⟩ | ⟨r, hn, rfl⟩
  · exact .inl ⟨.inl hn, rfl⟩
  · rcases engineStep_next h with ⟨-, rfl⟩ | hends | hgoes
    · exact .inl ⟨.inl hn, rfl⟩
    · exact .inr (.inl ⟨hn, hends⟩)
    · exact .inr (.inr (.inl ⟨hn, hgoes⟩))
  · exact .inl ⟨.inr ⟨w, hn⟩, rfl⟩
  · exact .inr (.inr (.inr (.inl ⟨w, i, hn, hd, h⟩)))
  · exact .inr (.inr (.inr (.inr (.inl ⟨b, hn, rfl⟩))))
  · exact .inr (.inr (.inr (.inr (.inr ⟨r, hn, rfl⟩))))

/-- The producer changes nothing but the channel (R54). -/
theorem chAppend_eq (b : Byte) (s : State) : chAppend b s = { s with queue := (chAppend b s).queue } := by
  unfold chAppend
  split <;> rfl

/-! ### MEAS -/

theorem acqStop_meas {s u : State} {r : ResultCode} (h : AcqStop s r u) : u.meas = s.meas := by
  cases h <;> rfl

theorem ends_meas {s u : State} {r : ResultCode} (h : Ends s r u) (hs : s.seq ≠ .dExec) : u.meas = s.meas := by
  cases h with
  | acqFailed hu => exact acqStop_meas hu
  | decoded hd => exact absurd hd hs
  | _ => rfl

theorem goes_meas {s t : State} (h : Goes s t) (hs : s.seq ≠ .dExec) : t.meas = s.meas := by
  cases h with
  | acqRetried hu => have hmeas := acqStop_meas hu; exact hmeas
  | read32 => rw [stepARead32_eq]
  | read30 => rw [stepARead30_eq]
  | decodedOk hd => exact absurd hd hs
  | decodedBad hd => exact absurd hd hs
  | _ => rfl

theorem exec_meas {i : Instr} {s t : State} (h : exec i s = .next t) : t.meas = s.meas := by
  rcases exec_next h with ⟨c, d, -, -, rfl⟩ | ⟨-, rfl⟩ | ⟨-, rfl⟩ | ⟨i, b, -, rfl⟩ | ⟨v, rfl⟩ | rfl
  · cases c <;> rfl
  all_goals rfl

/-- Settles O42: every other step keeps MEAS. -/
theorem onlyDecodeWritesMeas : Obligations.OnlyDecodeWritesMeas := by
  intro s t h hne
  have hmeas := spendTurn_meas s
  by_cases hs : s.seq = .dExec ∧ nextTurn s = .engine
  · exact .inl ⟨hs.2, hs.1⟩
  have hseq (hn : nextTurn s = .engine) : (spendTurn s).seq ≠ .dExec := by
    rw [spendTurn_seq]; exact fun e => hs ⟨e, hn⟩
  rcases step_cases h with ⟨-, rfl⟩ | ⟨hn, r, u, hends, rfl⟩ | ⟨hn, hgoes⟩ | ⟨w, i, -, -, h⟩ | ⟨b, -, rfl⟩ | ⟨r, hn, -⟩
  · exact absurd hmeas hne
  · exact absurd ((ends_meas hends (hseq hn)).trans hmeas) hne
  · exact absurd ((goes_meas hgoes (hseq hn)).trans hmeas) hne
  · exact absurd ((exec_meas h).trans hmeas) hne
  · rw [chAppend_eq] at hne; exact absurd hmeas hne
  · exact .inr ⟨r, hn⟩

/-! ### CMD and RESULT -/

/-- A command runs while a notification is pending (R25, R138). -/
theorem running_of_nWait {s : State} (h : s.Inv) (hs : s.seq = .nWait) : Running s :=
  running_of_inv h (hs.trans_ne nofun)

/-- An instruction that changes CMD or starts a command is an accepted word; one that changes RESULT alone answers a
notification with ERROR (R27, R29, R139). -/
theorem exec_cmd_result {i : Instr} {s t : State} (h : exec i s = .next t) :
    (s.busy = false ∧ t.busy = true ∧ t.result = .none) ∨ (notePend s = true ∧ t = ackRaised s) ∨
      (t.cmd = s.cmd ∧ t.result = s.result) := by
  rcases exec_next h with ⟨c, d, -, hb, rfl⟩ | ⟨-, rfl⟩ | ⟨hp, rfl⟩ | ⟨i, b, -, rfl⟩ | ⟨v, rfl⟩ | rfl
  · exact .inl ⟨hb, entryOf_busy .., entryOf_result ..⟩
  · exact .inr (.inr ⟨rfl, rfl⟩)
  · exact .inr (.inl ⟨hp, rfl⟩)
  all_goals exact .inr (.inr ⟨rfl, rfl⟩)

/-- Where a step leaves CMD and RESULT, short of a reset: a command starts, a command ends, or neither moves (R27, R29). -/
theorem step_cmd_result {s t : State} (hinv : s.Inv) (h : step s = .next t) (hreset : ∀ r, nextTurn s ≠ .reset r) :
    (s.busy = false ∧ t.busy = true ∧ t.result = .none) ∨
      (s.busy = true ∧ t.busy = false ∧ t.seq = .idle ∧ t.cmd = s.cmd) ∨ (t.cmd = s.cmd ∧ t.result = s.result) := by
  have hu := spendTurn_inv hinv
  have hcmd := spendTurn_cmd s
  have hresult := spendTurn_result s
  have hbusy := spendTurn_busy s
  rcases step_cases h with ⟨-, rfl⟩ | ⟨-, r, u, hends, rfl⟩ | ⟨-, hgoes⟩ | ⟨w, i, -, -, h⟩ | ⟨b, -, rfl⟩ | ⟨r, hn, -⟩
  · exact .inr (.inr ⟨hcmd, hresult⟩)
  · have hrun := running_of_inv hu (moves_seq_ne hends.moves).1
    exact .inr (.inl ⟨hbusy.symm.trans hrun.busy, rfl, rfl, hends.sameCommand.cmd.trans hcmd⟩)
  · exact .inr (.inr ⟨hgoes.sameCommand.cmd.trans hcmd, hgoes.sameCommand.result.trans hresult⟩)
  · rcases exec_cmd_result h with ⟨hb, htb, htr⟩ | ⟨hp, rfl⟩ | ⟨htc, htr⟩
    · exact .inl ⟨hbusy.symm.trans hb, htb, htr⟩
    · have hrun := running_of_nWait hu (seq_of_notePend hu hp)
      exact .inr (.inl ⟨hbusy.symm.trans hrun.busy, rfl, rfl, hcmd⟩)
    · exact .inr (.inr ⟨htc.trans hcmd, htr.trans hresult⟩)
  · rw [chAppend_eq]; exact .inr (.inr ⟨hcmd, hresult⟩)
  · exact absurd hn (hreset r)

/-- Settles O43: a step that starts a command is the accepted CMD write, and no other step moves CMD. -/
theorem cmdHoldsLastAcceptedWord : Obligations.CmdHoldsLastAcceptedWord := by
  intro s t hinv h hreset
  rcases step_cmd_result hinv h hreset with ⟨hb, htb, htr⟩ | ⟨hb, htb, hts, hcmd⟩ | ⟨hcmd, hresult⟩
  · obtain ⟨d, hn, hd⟩ := step_starts_command h hb htb
    exact ⟨fun _ => ⟨d, hn, hd, hb, htb, htr⟩, fun _ => .inl ⟨htb, htr, hb⟩⟩
  · exact ⟨fun hne => absurd hcmd hne, fun _ => .inr ⟨hb, htb, hts⟩⟩
  · exact ⟨fun hne => absurd hcmd hne, fun hne => absurd hresult hne⟩

/-! ### POLLST and RETRY -/

/-- The loop head belongs to POLL (R25). -/
theorem command_of_pHead {s : State} (h : Running s) (hs : s.seq = .pHead) : s.command = some .poll := by
  obtain ⟨c, hc, e⟩ := h.command_mem hs
  rwa [List.mem_singleton.1 hc] at e

theorem acqStop_pollst_retry {s u : State} {r : ResultCode} (h : AcqStop s r u) :
    u.pollst = s.pollst ∧ u.retry = s.retry := by
  cases h <;> exact ⟨rfl, rfl⟩

theorem ends_pollst_retry {s u : State} {r : ResultCode} (hrun : Running s) (h : Ends s r u) :
    s.command = some .poll ∨ (u.pollst = s.pollst ∧ u.retry = s.retry) := by
  cases h with
  | noRetries hs | expired hs => exact .inl (command_of_pHead hrun hs)
  | pollNotified hs hn hc => exact .inl hc
  | acqFailed hu => exact .inr (acqStop_pollst_retry hu)
  | _ => exact .inr ⟨rfl, rfl⟩

theorem goes_pollst_retry {s t : State} (hrun : Running s) (h : Goes s t) :
    s.command = some .poll ∨ (t.pollst = s.pollst ∧ t.retry = s.retry) := by
  rcases goes_retry h with ⟨hs, -⟩ | ⟨-, -, hretry⟩
  · exact .inl (command_of_pHead hrun hs)
  · exact .inr ⟨goes_pollst h, hretry⟩

theorem exec_pollst_retry {i : Instr} {s t : State} (h : exec i s = .next t) :
    t.command = some .poll ∨ (t.pollst = s.pollst ∧ t.retry = s.retry) := by
  rcases exec_next h with ⟨c, d, hc, -, rfl⟩ | ⟨-, rfl⟩ | ⟨-, rfl⟩ | ⟨i, b, -, rfl⟩ | ⟨v, rfl⟩ | rfl
  · cases c with
    | poll => exact .inl (accepted_command hc s)
    | _ => exact .inr ⟨rfl, rfl⟩
  all_goals exact .inr ⟨rfl, rfl⟩

/-- Settles O45: the poll's entry, its loop head and its end are the only steps that move the two fields. -/
theorem onlyPollWritesPollstAndRetry : Obligations.OnlyPollWritesPollstAndRetry := by
  intro s t hinv h hreset hne
  have hu := spendTurn_inv hinv
  have hpollst := spendTurn_pollst s
  have hretry := spendTurn_retry s
  suffices hcases : t.command = some .poll ∨ (t.pollst = (spendTurn s).pollst ∧ t.retry = (spendTurn s).retry) by
    rw [hpollst, hretry] at hcases
    exact hcases.resolve_right fun hsame => hne.elim (absurd hsame.1) (absurd hsame.2)
  rcases step_cases h with ⟨-, rfl⟩ | ⟨-, r, u, hends, rfl⟩ | ⟨-, hgoes⟩ | ⟨w, i, -, -, h⟩ | ⟨b, -, rfl⟩ | ⟨r, hn, -⟩
  · exact .inr ⟨rfl, rfl⟩
  · have hrun := running_of_inv hu (moves_seq_ne hends.moves).1
    exact (ends_pollst_retry hrun hends).imp_left hends.sameCommand.command.trans
  · have hrun := running_of_inv hu (moves_seq_ne hgoes.moves).1
    exact (goes_pollst_retry hrun hgoes).imp_left hgoes.sameCommand.command.trans
  · exact exec_pollst_retry h
  · rw [chAppend_eq]; exact .inr ⟨rfl, rfl⟩
  · exact absurd hn (hreset r)

/-! ### The channel -/

theorem exec_queue {i : Instr} {s t : State} (h : exec i s = .next t) : t.queue = s.queue := by
  rcases exec_next h with ⟨c, d, -, -, rfl⟩ | ⟨-, rfl⟩ | ⟨-, rfl⟩ | ⟨i, b, -, rfl⟩ | ⟨v, rfl⟩ | rfl
  · cases c <;> rfl
  all_goals rfl

theorem chAppend_queue (b : Byte) (s : State) :
    (chAppend b s).queue = if s.queue.length < s.chanCap then s.queue ++ [b] else s.queue := by
  unfold chAppend
  split <;> rfl

/-- Settles O46, by the agent whose turn it is. -/
theorem channelMovesInOrder : Obligations.ChannelMovesInOrder := by
  intro s t h
  have hqueue := spendTurn_queue s
  have front {q : List Byte} (hdrop : ∃ n, q = (spendTurn s).queue.drop n) : ∃ n, q = s.queue.drop n := hqueue ▸ hdrop
  rcases step_cases h with ⟨hn, rfl⟩ | ⟨hn, r, u, hends, rfl⟩ | ⟨hn, hgoes⟩ | ⟨w, i, hn, -, h⟩ | ⟨b, hn, rfl⟩ | ⟨r, hn, rfl⟩
  · refine ⟨fun _ => front ⟨0, rfl⟩, fun b hb => ?_, fun _ => hqueue⟩
    rcases hn with hn | ⟨w, hn⟩ <;> simp [hn] at hb
  · exact ⟨fun _ => front hends.queue_drop, by simp [hn], by simp [hn]⟩
  · exact ⟨fun _ => front hgoes.queue_drop, by simp [hn], by simp [hn]⟩
  · exact ⟨by simp [hn], by simp [hn], fun _ => (exec_queue h).trans hqueue⟩
  · refine ⟨by simp [hn], fun b' hb => ?_, by simp [hn]⟩
    cases hn.symm.trans hb
    rw [chAppend_queue, hqueue, spendTurn_chanCap]
  · exact ⟨by simp [hn], by simp [hn], fun _ => hqueue⟩

/-! ### A pending notification -/

/-- While a command runs the host can answer a notification, or read, or write where nothing changes (R85, R86, R139). -/
theorem exec_next_of_busy {w : Hbt} {i : Instr} {s t : State} (hb : s.busy = true) (hd : decodeHbt w = .ok i)
    (h : exec i s = .next t) :
    (i = .ackDone ∧ t = ackReturned s) ∨ (i = .ackError ∧ t = ackRaised s) ∨ ∃ v, t = { s with busReply := v } := by
  have hwf := (acceptedWordIsAnEncoding w i hd).1
  have idle {p : Prop} (hb' : s.busy = false) : p := by simp [hb] at hb'
  cases i with
  | poll | acquire | resync | decode | register | notify => exact idle (accept_eq_next.1 h).1
  | ackDone => exact .inl ⟨rfl, (execAckDone_next h).2⟩
  | ackError => exact .inr (.inl ⟨rfl, (execAckError_next h).2⟩)
  | rd a =>
    obtain ⟨r, -, -, ht⟩ := execRd_next h
    exact .inr (.inr ⟨_, ht⟩)
  | wr a d =>
    obtain ⟨-, hcmd, hack⟩ := Encoding.wfWrite_iff.1 hwf
    rcases execWr_next h with ⟨c, ha, -⟩ | ⟨ha, -⟩ | ⟨j, -, hb', -⟩ | ht
    · exact absurd (regAt_eq_some.1 ha) hcmd
    · exact absurd (regAt_eq_some.1 ha) hack
    · exact idle hb'
    · exact .inr (.inr ⟨s.busReply, ht⟩)

/-- Settles O48: while SEQ is N_WAIT the engine has no step, and of the host's only the two answers of the handshake change
the block. -/
theorem pendingNotificationHoldsStill : Obligations.PendingNotificationHoldsStill := by
  intro s t hinv hs h hreset
  have hwait : (spendTurn s).seq = .nWait := (spendTurn_seq s).trans hs
  have hbusy := (running_of_nWait (spendTurn_inv hinv) hwait).busy
  rcases step_cases h with ⟨-, rfl⟩ | ⟨-, r, u, hends, -⟩ | ⟨-, hgoes⟩ | ⟨w, i, hn, hd, h⟩ | ⟨b, -, rfl⟩ | ⟨r, hn, -⟩
  · simp [hs]
  · exact absurd hwait (moves_seq_ne hends.moves).2
  · exact absurd hwait (moves_seq_ne hgoes.moves).2
  · rcases exec_next_of_busy hbusy hd h with ⟨rfl, rfl⟩ | ⟨rfl, rfl⟩ | ⟨v, rfl⟩
    · simp [ackReturned, hn, hd]
    · simp [ackRaised, hn, hd]
    · simp [hs]
  · rw [chAppend_eq]; simp [hs]
  · exact absurd hn (hreset r)

/-! ### The end of a command -/

/-- A poll's three ends, read off the POLLST that each code stands for (R92, R94, R139). -/
theorem poll_end_cases {r : ResultCode} {p : PollState} (hr : r ∈ resultsOf .poll) (hp : p = pollstAfter r) :
    r = .ok ∧ p = .succeeded ∨ r = .timeout ∧ p = .exhausted ∨ r = .callbackError ∧ p = .attempting := by
  subst hp
  obtain rfl | rfl | rfl : r = .ok ∨ r = .timeout ∨ r = .callbackError := by simpa [resultsOf] using hr
  · exact .inl ⟨rfl, rfl⟩
  · exact .inr (.inl ⟨rfl, rfl⟩)
  · exact .inr (.inr ⟨rfl, rfl⟩)

/-- Settles O52: the invariant after the step says that CMD's command has left a result of its own, and CMD is the one that
ran. -/
theorem commandEndsWithItsOwnResult : Obligations.CommandEndsWithItsOwnResult := by
  intro s t hinv hb h htb hreset
  have hend := ended_of_inv (stepKeepsInvariant s t hinv h) htb
  have hcmd : t.cmd = s.cmd := by
    rcases step_cmd_result hinv h hreset with ⟨hb', -⟩ | ⟨-, -, -, hcmd⟩ | ⟨hcmd, -⟩
    · simp [hb] at hb'
    · exact hcmd
    · exact hcmd
  have hsame : s.command = t.command := by rw [State.command, State.command, hcmd]
  obtain ⟨c, -, hc⟩ := (running_of_inv hinv (hinv.busy_iff.1 hb)).seq_command
  have htc := hsame.symm.trans hc
  rcases hend.result with ⟨h0, -⟩ | ⟨c', hc', hr⟩
  · rw [State.command, h0] at htc; cases htc
  · obtain rfl : c = c' := Option.some.inj (htc.symm.trans hc')
    refine ⟨c, hc, htc, hr, fun hpoll => ?_⟩
    subst hpoll
    exact poll_end_cases hr (hend.pollst htc)

/-! ### Faults -/

theorem accept_ne_fault (d : Word) (entry : State → State) (s : State) (f : Fault) : accept d entry s ≠ .fault f := by
  unfold accept
  split <;> nofun

theorem ackWrite_ne_fault (d : Word) (s : State) (f : Fault) : ackWrite d s ≠ .fault f := by
  unfold ackWrite
  split
  · nofun
  · split
    · nofun
    · split <;> nofun

/-- A write is done or refused; it never faults (R84). -/
theorem execWr_ne_fault (a : BusAddr) (d : Word) (s : State) (f : Fault) : execWr a d s ≠ .fault f := by
  unfold execWr
  rcases regAt a with _ | r
  · nofun
  · cases r with
    | cmd =>
      show issue d s ≠ _
      unfold issue
      split
      · nofun
      · exact accept_ne_fault d _ s f
    | ack => exact ackWrite_ne_fault d s f
    | fbuf i =>
      show writeFrameByte i d s ≠ _
      unfold writeFrameByte
      split <;> nofun
    | _ => nofun

/-- A read faults only at a byte of FBUF that holds no value (R82). -/
theorem readReg_fault {r : Reg} {s : State} {f : Fault} (h : readReg r s = .fault f) :
    ∃ j : Fin 32, r = .fbuf j ∧ s.written[j] = false ∧ f = .unwrittenFrameByte j := by
  cases r with
  | fbuf j =>
    dsimp only [readReg] at h
    split at h
    · next hw => cases h; exact ⟨j, rfl, hw, rfl⟩
    · cases h
  | _ => cases h

/-- An instruction faults only where it reads a byte of FBUF that holds no value (R82, R146). -/
theorem exec_fault {i : Instr} {s : State} {f : Fault} (h : exec i s = .fault f) :
    ∃ j : Fin 32, i = .rd (regAddr (.fbuf j)) ∧ s.written[j] = false ∧ f = .unwrittenFrameByte j := by
  cases i with
  | poll | acquire | resync | decode | register | notify => exact absurd h (accept_ne_fault _ _ s f)
  | ackDone => exact absurd ((exec_ackDone_eq s).symm.trans h) (ackWrite_ne_fault _ s f)
  | ackError => exact absurd ((exec_ackError_eq s).symm.trans h) (ackWrite_ne_fault _ s f)
  | wr a d => exact absurd h (execWr_ne_fault a d s f)
  | rd a =>
    rcases hr : regAt a with _ | r
    · rw [exec, execRd, hr] at h; cases h
    · obtain rfl := regAt_eq_some.1 hr
      obtain ⟨j, rfl, hw, hf⟩ := readReg_fault ((exec_rd r s).symm.trans h)
      exact ⟨j, rfl, hw, hf⟩

/-- The engine answers every micro-step, but for a D_EXEC that meets a byte without a value (R120). -/
theorem engineStep_answers (s : State) :
    (∃ t, engineStep s = .next t) ∨
      (s.seq = .dExec ∧ ∃ j, someUnwritten s.written = some j ∧ engineStep s = .fault (.unwrittenFrameByte j)) := by
  by_cases hs : s.seq = .dExec
  · rw [engineStep_dExec hs]
    rcases hu : someUnwritten s.written with _ | j
    · exact .inl ⟨_, stepDExec_of_written (someUnwritten_eq_none.1 hu)⟩
    · exact .inr ⟨hs, j, rfl, stepDExec_of_unwritten hu⟩
  · left
    unfold engineStep
    split
    case h_12 hd => exact absurd hd hs
    all_goals exact ⟨_, rfl⟩

/-- Where a step faults: the host reads, or the engine decodes, a byte of FBUF that holds no value (R146). -/
theorem step_fault {s : State} {f : Fault} (h : step s = .fault f) :
    ∃ j : Fin 32, f = .unwrittenFrameByte j ∧ s.written[j] = false ∧
      ((∃ w, nextTurn s = .host w ∧ decodeHbt w = .ok (.rd (regAddr (.fbuf j)))) ∨
        (nextTurn s = .engine ∧ s.seq = .dExec)) := by
  have hwritten := spendTurn_written s
  unfold step at h
  split at h
  · cases h
  unfold takeTurn runTurn at h
  rcases hn : nextTurn s with _ | w | b | r
  · rw [hn] at h
    dsimp only [engineTurn] at h
    split at h
    · cases h
    rcases engineStep_answers (spendTurn s) with ⟨t, ht⟩ | ⟨hs, j, hj, hf⟩
    · cases ht.symm.trans h
    · cases hf.symm.trans h
      rw [hwritten] at hj
      exact ⟨j, rfl, someUnwritten_eq_some hj, .inr ⟨rfl, (spendTurn_seq s).symm.trans hs⟩⟩
  · rw [hn] at h
    dsimp only [hostTurn] at h
    split at h
    · cases h
    split at h
    · next i hd =>
      obtain ⟨j, rfl, hw, hf⟩ := exec_fault h
      rw [hwritten] at hw
      exact ⟨j, hf, hw, .inl ⟨w, rfl, hd⟩⟩
    · cases h
  · rw [hn] at h; cases h
  · rw [hn] at h; cases h

/-- Settles O51: a step faults at a read or at a decode, and an acquired decode has written every byte. -/
theorem faultsOnlyOnUnwrittenFrameByte : Obligations.FaultsOnlyOnUnwrittenFrameByte := by
  intro s i h
  obtain ⟨j, hj, hw, hwhere⟩ := step_fault h
  obtain rfl : i = j := by simpa using hj
  refine ⟨hw, hwhere.imp_right fun ⟨hn, hs⟩ => ⟨hn, hs, fun hinv => ?_⟩⟩
  by_contra hc
  simp [hinv.acquired_written hs hc i] at hw

/-- Settles O60: the engine halted lets its turn pass, and no D_EXEC of an acquisition meets a byte without a value. -/
theorem engineStepOfAcquisitionIsSafe : Obligations.EngineStepOfAcquisitionIsSafe := by
  intro s hinv hr hn hc
  cases he : s.engineHalted with
  | true => exact ⟨_, step_engine_halted hr he hn⟩
  | false =>
    rcases engineStep_answers (spendTurn s) with ⟨t, ht⟩ | ⟨hs, j, hj, -⟩
    · exact ⟨t, (step_engine hr he hn).trans ht⟩
    · rw [spendTurn_seq] at hs
      rw [spendTurn_written] at hj
      have hw := someUnwritten_eq_some hj
      simp [hinv.acquired_written hs hc j] at hw

/-! ### The marks of a run -/

/-- Halting an agent changes the two halt marks and nothing else (R146). -/
theorem haltAgent_eq (t : Turn) (s : State) : haltAgent t s =
    { s with hostHalted := (haltAgent t s).hostHalted, engineHalted := (haltAgent t s).engineHalted } := by
  cases t <;> rfl

/-- What a run goes on from after a fault (R146). -/
theorem advance_of_fault {s : State} {f : Fault} (h : step s = .fault f) :
    advance s = haltAgent (nextTurn s) { spendTurn s with faulted := insertFault f s.faulted } := by
  rw [advance, h, settle]

theorem advance_of_refused {s : State} {r : Refusal} (h : step s = .refused r) :
    advance s = { s with refused := true } := by
  rw [advance, h, settle]

/-- The fault set after a step of the run: as it was, or with one more reason (R146). -/
theorem advance_faulted (s : State) :
    (advance s).faulted = s.faulted ∨ ∃ f, step s = .fault f ∧ (advance s).faulted = insertFault f s.faulted := by
  rcases h : step s with t | f | r
  · rw [advance, h]; exact .inl (step_marks h).1
  · rw [advance_of_fault h, haltAgent_eq]; exact .inr ⟨f, rfl, rfl⟩
  · rw [advance_of_refused h]; exact .inl rfl

/-- A state that is refused has no step (R145). -/
theorem step_of_refused {s : State} (hr : s.refused = true) : step s = .refused .runRefused := if_pos hr

/-- Settles O49: a refusal is settled by its mark; a fault by its reason and the halt of the agent whose turn it was. -/
theorem runKeepsItsMarks : Obligations.RunKeepsItsMarks := by
  intro s
  refine ⟨fun hr => ⟨step_of_refused hr, ?_⟩, fun r => advance_of_refused, fun f h => ?_, fun f hf => ?_, fun hnodup => ?_⟩
  · rw [advance_of_refused (step_of_refused hr), ← hr]
  · obtain ⟨j, -, -, hwhere⟩ := step_fault h
    rw [advance_of_fault h]
    refine ⟨hwhere.imp (fun ⟨w, hn, _⟩ => ⟨w, hn⟩) And.left, fun g => ?_, fun w hn => ?_, fun hn => ?_, ?_⟩
    · rw [haltAgent_eq]; exact mem_insertFault
    · rw [hn]; exact ⟨rfl, spendTurn_engineHalted s⟩
    · rw [hn]; exact ⟨rfl, spendTurn_hostHalted s⟩
    · cases nextTurn s <;> rfl
  · rcases advance_faulted s with h | ⟨g, -, h⟩
    · rw [h]; exact hf
    · rw [h]; exact mem_insertFault.2 (.inr hf)
  · rcases advance_faulted s with h | ⟨g, -, h⟩
    · rw [h]; exact hnodup
    · rw [h]; exact nodup_insertFault hnodup

end Sys2Proof.EveryStep
end

section
/-! Runs of whole commands (R91 to R116, R137 to R142, R168): runs composed of shorter ones, the scan for the marker pair by
induction on the channel, and the two commands that end it, RESYNC and ACQUIRE, with the engine alone going on. -/

namespace Sys2Proof.Runs

open Machine Laws Acquire Resync HostAccess Transactions Registry Engine Invariant SingleStep

/-! ### Runs in parts -/

theorem stepN_succ {k : Nat} {s t u : State} (h : step s = .next t) (hk : stepN k t = .next u) :
    stepN (k + 1) s = .next u := by
  rw [stepN, h]; exact hk

theorem stepN_one {s t : State} (h : step s = .next t) : stepN 1 s = .next t := stepN_succ h rfl

theorem stepN_trans {m n : Nat} {s t u : State} (hm : stepN m s = .next t) (hn : stepN n t = .next u) :
    stepN (m + n) s = .next u := by
  induction m generalizing s with
  | zero => cases hm; rwa [Nat.zero_add]
  | succ m ih =>
    rcases h : step s with v | f | r
    · rw [stepN, h] at hm
      rw [Nat.succ_add]
      exact stepN_succ h (ih hm)
    · rw [stepN, h] at hm; cases hm
    · rw [stepN, h] at hm; cases hm

/-- The engine alone goes on: no turn is listed, and it has not halted (R22). -/
structure EngineAlone (s : State) : Prop where
  refused : s.refused = false
  engineHalted : s.engineHalted = false
  turns : s.turns = []
  later : s.later = .engine

/-- The engine stays alone: its steps touch neither the marks nor the turns to come. -/
theorem EngineAlone.next {s t : State} (h : EngineAlone s) (he : engineStep s = .next t) : EngineAlone t := by
  have hsame := (engineStep_sameRun he).1
  exact ⟨hsame.refused.trans h.refused, hsame.engineHalted.trans h.engineHalted, hsame.turns.trans h.turns,
    hsame.later.trans h.later⟩

/-- A step of the engine alone, put before a run. -/
theorem EngineAlone.run {k : Nat} {s t u : State} (h : EngineAlone s) (he : engineStep s = .next t)
    (hk : stepN k t = .next u) : stepN (k + 1) s = .next u :=
  stepN_succ ((step_of_no_turn h.refused h.turns h.later).trans ((engineTurn_eq h.engineHalted).trans he)) hk

/-- A listed turn of the engine is its micro-step (R22). -/
theorem step_listed_engine {s : State} {ts : List Turn} (hr : s.refused = false) (he : s.engineHalted = false)
    (hts : s.turns = .engine :: ts) : step s = engineStep { s with turns := ts } :=
  (engineTurnRunsMicroStep s hr he).2.2.1 ts hts

/-- A listed turn of the host runs the well-formed instruction it encodes (R76, R81). -/
theorem step_encoded {s : State} {i : Instr} {ts : List Turn} (hr : s.refused = false) (hh : s.hostHalted = false)
    (hts : s.turns = .host (encode i) :: ts) (hi : i.wf = true) : step s = exec i { s with turns := ts } :=
  (stepRunsDecodedInstruction s _ i hr hh (turn_of_listed hts).1 (decodeEncodeRoundTrip i hi)).2 ts hts

/-- The state that the host's write of a command without a handle leaves, when that turn is listed first (R88). -/
def started (c : Command) (ts : List Turn) (s : State) : State :=
  accepted (mkCmd 0 (commandOp c)) c { s with turns := ts }

theorem step_started {s : State} {ts : List Turn} (c : Command) (hr : s.refused = false) (hh : s.hostHalted = false)
    (hb : s.busy = false) (hts : s.turns = .host (encode (commandInstr c 0#8)) :: ts) :
    step s = .next (started c ts s) :=
  (step_encoded hr hh hts (commandInstr_wf c _)).trans ((exec_commandInstr c (.inr rfl) _).trans (execCommand_next hb))

theorem started_command (c : Command) (ts : List Turn) (s : State) : (started c ts s).command = some c :=
  accepted_command (checkCmd_eq_ok.2 (by simp)) _

/-- Once its one listed turn has started a command, the engine is alone. -/
theorem EngineAlone.started {s : State} (c : Command) (hr : s.refused = false) (he : s.engineHalted = false)
    (hl : s.later = .engine) : EngineAlone (started c [] s) := by
  cases c <;> exact ⟨hr, he, rfl, hl⟩

/-! ### The scan -/

/-- A pair at the front ends the search; else it goes on behind the first byte (R114). -/
theorem afterMarker_cons (b : Byte) (q : List Byte) :
    afterMarker (b :: q) = if b = 0x42 ∧ q.head? = some 0x4D then some q.tail else afterMarker q := by
  cases q with
  | nil => simp [afterMarker]
  | cons c q => simp only [List.head?_cons, Option.some.injEq]; rfl

/-- A state with its micro-step and its channel replaced: all that a scan changes (R110, R111). -/
def scanAt (x : Seq) (q : List Byte) (s : State) : State := { s with seq := x, queue := q }

theorem scanAt_self {s : State} {x : Seq} {q : List Byte} (hs : s.seq = x) (hq : s.queue = q) : scanAt x q s = s := by
  subst hs hq; rfl

theorem EngineAlone.scanAt {s : State} (h : EngineAlone s) (x : Seq) (q : List Byte) : EngineAlone (scanAt x q s) :=
  ⟨h.refused, h.engineHalted, h.turns, h.later⟩

theorem engineStep_scan_nil (s : State) : engineStep (scanAt .rRead [] s) = .next (scanAt .rFlush [] s) :=
  (scanReadsOneByte _ rfl).1 rfl

theorem engineStep_scan_marker (q : List Byte) (s : State) :
    engineStep (scanAt .rRead (0x42 :: q) s) = .next (scanAt .rPeek q s) :=
  (scanReadsOneByte _ rfl).2.1 q rfl

theorem engineStep_scan_other {b : Byte} (hb : b ≠ 0x42) (q : List Byte) (s : State) :
    engineStep (scanAt .rRead (b :: q) s) = .next (scanAt .rRead q s) :=
  (scanReadsOneByte _ rfl).2.2 b q rfl hb

theorem engineStep_peek_pair {q : List Byte} (hq : q.head? = some 0x4D) (s : State) :
    engineStep (scanAt .rPeek q s) = .next (scanAt .rTake2 q s) :=
  (scanPeeksSecondMarker _ rfl).1 hq

theorem engineStep_peek_other {q : List Byte} (hq : q.head? ≠ some 0x4D) (s : State) :
    engineStep (scanAt .rPeek q s) = .next (scanAt .rRead q s) :=
  (scanPeeksSecondMarker _ rfl).2 hq

/-- Where a scan of these bytes stops: at the second marker byte of the first pair, or with the channel empty (R115). -/
def scanned (q : List Byte) (s : State) : State :=
  match afterMarker q with
  | some rest => scanAt .rTake2 (0x4D :: rest) s
  | none => scanAt .rFlush [] s

theorem scanned_of_some {q rest : List Byte} (h : afterMarker q = some rest) (s : State) :
    scanned q s = scanAt .rTake2 (0x4D :: rest) s := by
  rw [scanned, h]

theorem scanned_of_none {q : List Byte} (h : afterMarker q = none) (s : State) :
    scanned q s = scanAt .rFlush [] s := by
  rw [scanned, h]

theorem EngineAlone.scanned {s : State} (h : EngineAlone s) (q : List Byte) : EngineAlone (scanned q s) := by
  unfold Runs.scanned
  split <;> exact h.scanAt _ _

/-- A first byte that begins no pair is skipped (R115). -/
theorem scanned_cons_of_no_pair {b : Byte} {q : List Byte} (h : ¬ (b = 0x42 ∧ q.head? = some 0x4D)) (s : State) :
    scanned (b :: q) s = scanned q s := by
  rw [scanned, scanned, afterMarker_cons, if_neg h]

/-- The scan reads a byte, and after a first marker byte peeks at the next: two steps a byte and one to find the channel
empty (R110, R111, R115). -/
theorem scan_run (q : List Byte) {s : State} (h : EngineAlone s) :
    ∃ k ≤ 2 * q.length + 1, stepN k (scanAt .rRead q s) = .next (scanned q s) := by
  induction q with
  | nil => exact ⟨1, by simp, (h.scanAt _ _).run (engineStep_scan_nil s) rfl⟩
  | cons b q ih =>
    obtain ⟨k, hk, hrun⟩ := ih
    have hlen : (b :: q).length = q.length + 1 := rfl
    by_cases hb : b = 0x42
    · subst hb
      have hread := engineStep_scan_marker q s
      by_cases hhead : q.head? = some 0x4D
      · obtain ⟨rest, rfl⟩ := List.head?_eq_some_iff.1 hhead
        have hfound := engineStep_peek_pair (q := 0x4D :: rest) rfl s
        refine ⟨2, by omega, (h.scanAt _ _).run hread ((h.scanAt _ _).run hfound ?_)⟩
        rw [scanned_of_some (by rw [afterMarker_cons]; exact if_pos ⟨rfl, rfl⟩)]; rfl
      · have hskip := scanned_cons_of_no_pair (b := 0x42) (fun hp => hhead hp.2) s
        rw [hskip]
        exact ⟨k + 2, by omega, (h.scanAt _ _).run hread ((h.scanAt _ _).run (engineStep_peek_other hhead s) hrun)⟩
    · rw [scanned_cons_of_no_pair fun hp => hb hp.1]
      exact ⟨k + 1, by omega, (h.scanAt _ _).run (engineStep_scan_other hb q s) hrun⟩

/-! ### RESYNC -/

/-- RESYNC ends at the step behind the scan, with the code of how the scan stopped (R112, R113). -/
theorem scanned_resync_ends {s : State} (hc : s.command = some .resync) (q : List Byte) :
    ∃ r q', engineStep (scanned q s) = .next (finish r (scanAt .idle q' s)) ∧
      (∀ rest, afterMarker q = some rest → r = .ok ∧ q' = rest) ∧ (afterMarker q = none → r = .desynchronized ∧ q' = []) := by
  rcases h : afterMarker q with _ | rest
  · rw [scanned_of_none h]
    exact ⟨_, _, (failedScanFlushesChannel _ rfl).1 (.inl hc), nofun, fun _ => ⟨rfl, rfl⟩⟩
  · rw [scanned_of_some h]
    exact ⟨_, _, (scanTakesSecondMarker _ rest rfl rfl).1 hc, fun _ e => ⟨rfl, Option.some.inj e⟩, nofun⟩

/-- Settles O53: the host's turn, the scan, and the step behind it. -/
theorem resyncStopsBehindFirstMarker : Obligations.ResyncStopsBehindFirstMarker := by
  intro s hr hh he hb hts hl
  have hstart := step_started .resync hr hh hb hts
  have halone := EngineAlone.started .resync hr he hl
  obtain ⟨k, hk, hscan⟩ := scan_run s.queue halone
  have hscanned := halone.scanned s.queue
  obtain ⟨r, q', hend, hfound, hnone⟩ := scanned_resync_ends (started_command .resync [] s) s.queue
  refine ⟨k + 1 + 1, _, by omega, stepN_succ hstart (stepN_trans hscan (hscanned.run hend rfl)), ?_⟩
  exact ⟨rfl, rfl, hfound, hnone, rfl, rfl, rfl, rfl⟩

/-! ### ACQUIRE -/

/-- Where ACQUIRE ends from a state that runs it: idle, with OBS, COUNT, POLLST and RETRY as they were, the bytes left that
are given, and the frame given decoded, or the failure given with MEAS as it was (R100, R108). -/
structure AcquireEnds (a : Except ResultCode (List Byte) × List Byte) (s t : State) : Prop where
  busy : t.busy = false
  seq : t.seq = .idle
  queue : t.queue = a.2
  frame : ∀ F, a.1 = .ok F → t.fbuf.toList = F ∧ t.result = frameResult t.fbuf ∧ t.meas = frameMeas t.fbuf
  failure : ∀ r, a.1 = .error r → t.result = r ∧ t.meas = s.meas
  obs : t.obs = s.obs
  count : t.count = s.count
  pollst : t.pollst = s.pollst
  retry : t.retry = s.retry

theorem acquisition_of_lt {q : List Byte} (h : q.length < 32) : acquisition q = (.error .insufficientData, q) := if_pos h

theorem acquisition_of_eq {q : List Byte} (h : q.length = 32) : acquisition q = (.ok q, []) :=
  (if_neg h.not_lt).trans (if_pos h)

/-- With more than a frame's bytes, what stands behind the first marker pair decides (R104, R108, R113). -/
theorem acquisition_of_gt {q : List Byte} (h : 32 < q.length) : acquisition q =
    match afterMarker q with
    | none => (.error .desynchronized, [])
    | some rest =>
      if rest.length < 30 then (.error .insufficientData, rest)
      else (.ok (0x42 :: 0x4D :: rest.take 30), rest.drop 30) :=
  (if_neg h.not_gt).trans (if_neg h.ne')

/-- Once a read has filled FBUF, the decoder ends the command with the frame's own result (R106, R120). -/
theorem acquired_frame_ends {s v : State} (hc : s.command = some .acquire) (hw : ∀ i : Fin 32, v.written[i] = true)
    (hv : v = { s with fbuf := v.fbuf, written := v.written, queue := v.queue, seq := .dExec }) :
    ∃ t, engineStep v = .next t ∧ AcquireEnds (.ok v.fbuf.toList, v.queue) s t := by
  generalize v.fbuf = F, v.written = W, v.queue = Q at hv hw ⊢
  subst hv
  refine ⟨_, ((decodeStepRoutesResult _ rfl).2 hw).1 (.inr hc), rfl, rfl, rfl,
    fun _ e => by cases e; exact ⟨rfl, rfl, rfl⟩, nofun, rfl, rfl, rfl, rfl⟩

/-- The marker as the first two bytes of a frame buffer (R104). -/
theorem marker_take_two (F : Vector Byte 32) (a b : Byte) : ((F.set 0 a).set 1 b).toList.take 2 = [a, b] := by
  apply List.ext_getElem
  · simp
  · intro i h1 h2
    obtain rfl | rfl : i = 0 ∨ i = 1 := by simp at h2; omega
    · simp
    · simp

/-- A state at the 30-byte read, the marker in place (R104). -/
def markedAt (rest : List Byte) (s : State) : State :=
  { s with
    fbuf := (s.fbuf.set 0 0x42).set 1 0x4D
    written := (s.written.set 0 true).set 1 true
    queue := rest
    seq := .aRead30 }

/-- The 30-byte read behind the marker fills FBUF with a whole frame (R105, R107). -/
theorem markedAt_read {rest : List Byte} (hlen : 30 ≤ rest.length) (s : State) :
    ∃ v, engineStep (markedAt rest s) = .next v ∧ v.fbuf.toList = 0x42 :: 0x4D :: rest.take 30 ∧
      (∀ i : Fin 32, v.written[i] = true) ∧ v.queue = rest.drop 30 ∧
      v = { s with fbuf := v.fbuf, written := v.written, queue := v.queue, seq := .dExec } := by
  obtain ⟨v, hread, hfbuf, -, hqueue, hv⟩ := postResyncReadFillsFrame (markedAt rest s) rfl hlen
  have hwritten := stepARead30_written (s := markedAt rest s) hlen (by simp [markedAt]) (by simp [markedAt])
  obtain rfl : stepARead30 (markedAt rest s) = v := by
    cases (engineStep_aRead30 rfl).symm.trans hread; rfl
  exact ⟨_, hread, hfbuf.trans (by rw [markedAt, marker_take_two]; rfl), hwritten, hqueue, hv⟩

/-- Behind the marker pair, the acquisition reads the rest of the frame, or finds too few bytes (R104, R105). -/
theorem acquire_behind_marker {s : State} (h : EngineAlone s) (hc : s.command = some .acquire) (rest : List Byte) :
    ∃ k ≤ 3, ∃ t, stepN k (scanAt .aMark rest s) = .next t ∧
      AcquireEnds (if rest.length < 30 then (.error .insufficientData, rest)
        else (.ok (0x42 :: 0x4D :: rest.take 30), rest.drop 30)) s t := by
  have hmark := h.scanAt .aMark rest
  obtain ⟨-, hshort, hlong⟩ := markerPlacedAfterResync (scanAt .aMark rest s) rfl
  by_cases hlen : rest.length < 30
  · rw [if_pos hlen]
    refine ⟨1, by omega, _, hmark.run (hshort hlen hc) rfl, rfl, rfl, rfl, nofun,
      fun _ e => by cases e; exact ⟨rfl, rfl⟩, rfl, rfl, rfl, rfl⟩
  · rw [if_neg hlen]
    have hge := Nat.le_of_not_lt hlen
    have hplaced : engineStep (scanAt .aMark rest s) = .next (markedAt rest s) := hlong hge
    have hmarked := hmark.next hplaced
    obtain ⟨v, hread, hfbuf, hwritten, hqueue, hv⟩ := markedAt_read hge s
    obtain ⟨t, hdec, hends⟩ := acquired_frame_ends hc hwritten hv
    rw [hfbuf, hqueue] at hends
    exact ⟨3, le_rfl, t, hmark.run hplaced (hmarked.run hread ((hmarked.next hread).run hdec rfl)), hends⟩

/-- The steps behind the scan: with a pair the second marker byte is taken and the acquisition goes on, without one it has
failed (R112, R113). -/
theorem acquire_behind_scan {s : State} (h : EngineAlone s) (hc : s.command = some .acquire) {q : List Byte}
    (hlen : 32 < q.length) :
    ∃ k ≤ 4, ∃ t, stepN k (scanned q s) = .next t ∧ AcquireEnds (acquisition q) s t := by
  have hscanned := h.scanned q
  rw [acquisition_of_gt hlen]
  rcases hm : afterMarker q with _ | rest
  · rw [scanned_of_none hm] at hscanned ⊢
    refine ⟨1, by omega, _, hscanned.run ((failedScanFlushesChannel _ rfl).1 (.inr hc)) rfl, rfl, rfl, rfl, nofun,
      fun _ e => by cases e; exact ⟨rfl, rfl⟩, rfl, rfl, rfl, rfl⟩
  · rw [scanned_of_some hm] at hscanned ⊢
    have htake : engineStep (scanAt .rTake2 (0x4D :: rest) s) = .next (scanAt .aMark rest s) :=
      (scanTakesSecondMarker _ rest rfl rfl).2 (.inr hc)
    obtain ⟨k, hk, t, hrun, hends⟩ := acquire_behind_marker h hc rest
    exact ⟨k + 1, by omega, t, hscanned.run htake hrun, hends⟩

/-- The acquirer, from its byte count on (R102). -/
theorem acquire_run {s : State} (h : EngineAlone s) (hs : s.seq = .aSample) (hc : s.command = some .acquire) :
    ∃ k ≤ 2 * s.queue.length + 6, ∃ t, stepN k s = .next t ∧ AcquireEnds (acquisition s.queue) s t := by
  obtain ⟨-, hshort, hframe, hmore⟩ := acquirerSamplesByteCount s hs
  rcases Nat.lt_trichotomy s.queue.length 32 with hlen | hlen | hlen
  · rw [acquisition_of_lt hlen]
    refine ⟨1, by omega, _, h.run (hshort hlen hc) rfl, rfl, rfl, rfl, nofun,
      fun _ e => by cases e; exact ⟨rfl, rfl⟩, rfl, rfl, rfl, rfl⟩
  · have hsample := hframe hlen
    have hread32 := h.next hsample
    obtain ⟨v, hread, hfbuf, hwritten, hqueue, hv⟩ := directReadFillsFrame { s with seq := .aRead32 } rfl hlen.ge
    have hall : v.fbuf.toList = s.queue := hfbuf.trans (List.take_of_length_le hlen.le)
    have hnone : v.queue = [] := hqueue.trans (List.drop_of_length_le hlen.le)
    obtain ⟨t, hdec, hends⟩ := acquired_frame_ends hc hwritten hv
    rw [hall, hnone, ← acquisition_of_eq hlen] at hends
    exact ⟨3, by omega, t, h.run hsample (hread32.run hread ((hread32.next hread).run hdec rfl)), hends⟩
  · have hsample : engineStep s = .next (scanAt .rRead s.queue s) := hmore hlen
    obtain ⟨k, hk, hscan⟩ := scan_run s.queue h
    obtain ⟨k', hk', t, hrun, hends⟩ := acquire_behind_scan h hc hlen
    exact ⟨k + k' + 1, by omega, t, h.run hsample (stepN_trans hscan hrun), hends⟩

/-- Settles O54: the host's turn, and the acquirer from its byte count on. -/
theorem acquireReadsOneFrame : Obligations.AcquireReadsOneFrame := by
  intro s hr hh he hb hts hl
  have hstart := step_started .acquire hr hh hb hts
  obtain ⟨k, hk, t, hrun, hends⟩ :=
    acquire_run (EngineAlone.started .acquire hr he hl) rfl (started_command .acquire [] s)
  obtain ⟨hbusy, hseq, hqueue, hframe, hfailure, hobs, hcount, hpollst, hretry⟩ := hends
  have hlen : (started .acquire [] s).queue.length = s.queue.length := rfl
  exact ⟨k + 1, t, by omega, stepN_succ hstart hrun, hbusy, hseq, hqueue, hframe, hfailure, hobs, hcount, hpollst, hretry⟩

end Sys2Proof.Runs
end

section
/-! Scans and notifications under schedules with other agents' turns (R115, R168, D35): a scan fed finitely many bytes ends,
by a measure that every turn lowers; a scan fed without end and an unanswered notification go round for ever. -/

namespace Sys2Proof.FedScan

open Machine Acquire Resync HostAccess Engine SingleStep EveryStep Runs

/-! ### The schedule -/

/-- Only the engine and the producer have turns, finitely many of the producer's, and the engine has not halted (D35). -/
structure Fed (s : State) : Prop where
  refused : s.refused = false
  engineHalted : s.engineHalted = false
  turns : ∀ t ∈ s.turns, t = .engine ∨ ∃ b, t = .producer b
  later : s.later = .engine

/-- A turn of a fed scan: the engine's, with no more turns left than before, or one of the producer's listed ones. -/
theorem Fed.step {s : State} (h : Fed s) :
    Fed (spendTurn s) ∧
      ((step s = engineStep (spendTurn s) ∧ (spendTurn s).turns.length ≤ s.turns.length) ∨
        ∃ b, step s = .next (chAppend b (spendTurn s)) ∧ (spendTurn s).turns.length + 1 = s.turns.length) := by
  obtain ⟨hr, he, hts, hl⟩ := h
  rcases hs : s.turns with _ | ⟨t, ts⟩
  · obtain ⟨hn, hspend⟩ := turn_of_engine_later hs hl
    rw [step_engine hr he hn, hspend, hs]
    exact ⟨⟨hr, he, hs ▸ hts, hl⟩, .inl ⟨rfl, le_rfl⟩⟩
  · obtain ⟨hn, hspend⟩ := turn_of_listed hs
    rw [hs] at hts
    rw [hspend]
    refine ⟨⟨hr, he, fun t ht => hts t (List.mem_cons_of_mem _ ht), hl⟩, ?_⟩
    obtain rfl | ⟨b, rfl⟩ := hts t List.mem_cons_self
    · exact .inl ⟨by rw [step_engine hr he hn, hspend], Nat.le_succ _⟩
    · exact .inr ⟨b, step_of_turn hr hs, rfl⟩

theorem Fed.engine {s t : State} (h : Fed s) (he : engineStep s = .next t) : Fed t := by
  have hsame := (engineStep_sameRun he).1
  obtain ⟨hr, hh, hts, hl⟩ := h
  exact ⟨hsame.refused.trans hr, hsame.engineHalted.trans hh, hsame.turns ▸ hts, hsame.later.trans hl⟩

theorem Fed.append {s : State} (h : Fed s) (b : Byte) : Fed (chAppend b s) := by
  rw [chAppend_eq]
  obtain ⟨hr, hh, hts, hl⟩ := h
  exact ⟨hr, hh, hts, hl⟩

/-! ### The scan ends -/

/-- Turns and bytes still to be spent by a scan: a turn of the producer's may bring a byte, which takes two steps. -/
def cost (s : State) : Nat := 3 * s.turns.length + 2 * s.queue.length + if s.seq = .rPeek then 3 else 2

/-- The scan is under way. -/
def Scanning (s : State) : Prop := s.seq = .rRead ∨ s.seq = .rPeek

/-- The scan has found the second marker byte, or the channel empty (R115). -/
def Stopped (s : State) : Prop :=
  (s.seq = .rTake2 ∧ s.queue.head? = some 0x4D) ∨ (s.seq = .rFlush ∧ s.queue = [])

/-- An engine step of a scan stops it or lowers its cost (R110, R111). -/
theorem engineStep_scanning {s : State} (hs : Scanning s) :
    ∃ t, engineStep s = .next t ∧ t.cmd = s.cmd ∧ t.busy = s.busy ∧ t.turns = s.turns ∧
      (Stopped t ∨ (Scanning t ∧ cost t < cost s)) := by
  rcases hs with hs | hs
  · obtain ⟨hnil, hmarker, hother⟩ := scanReadsOneByte s hs
    rcases hq : s.queue with _ | ⟨b, rest⟩
    · exact ⟨_, hnil hq, rfl, rfl, rfl, .inl (.inr ⟨rfl, hq⟩)⟩
    · by_cases hb : b = 0x42
      · subst hb
        exact ⟨_, hmarker rest hq, rfl, rfl, rfl, .inr ⟨.inr rfl, by simp [cost, hs, hq]; omega⟩⟩
      · exact ⟨_, hother b rest hq hb, rfl, rfl, rfl, .inr ⟨.inl rfl, by simp [cost, hs, hq]⟩⟩
  · obtain ⟨hpair, hother⟩ := scanPeeksSecondMarker s hs
    by_cases hq : s.queue.head? = some 0x4D
    · exact ⟨_, hpair hq, rfl, rfl, rfl, .inl (.inl ⟨rfl, hq⟩)⟩
    · exact ⟨_, hother hq, rfl, rfl, rfl, .inr ⟨.inl rfl, by simp [cost, hs]⟩⟩

/-- What a run of a fed scan leaves: the same command running, and the turns that are still listed. -/
structure FedRun (s t : State) : Prop where
  fed : Fed t
  cmd : t.cmd = s.cmd
  busy : t.busy = s.busy
  turns : t.turns.length ≤ s.turns.length

theorem FedRun.trans {s t u : State} (h : FedRun s t) (h' : FedRun t u) : FedRun s u :=
  ⟨h'.fed, h'.cmd.trans h.cmd, h'.busy.trans h.busy, h'.turns.trans h.turns⟩

theorem chAppend_seq_command_turns (b : Byte) (s : State) :
    (chAppend b s).seq = s.seq ∧ (chAppend b s).command = s.command ∧ (chAppend b s).turns = s.turns := by
  rw [chAppend_eq]
  exact ⟨rfl, rfl, rfl⟩

theorem chAppend_queue_length_le (b : Byte) (s : State) : (chAppend b s).queue.length ≤ s.queue.length + 1 := by
  rw [chAppend_queue]
  split <;> simp

/-- A turn of a fed scan stops it or lowers its cost. -/
theorem step_scanning {s : State} (h : Fed s) (hs : Scanning s) :
    ∃ t, step s = .next t ∧ FedRun s t ∧ (Stopped t ∨ (Scanning t ∧ cost t < cost s)) := by
  obtain ⟨hfed, ⟨hstep, hlen⟩ | ⟨b, hstep, hlen⟩⟩ := h.step
  · have hs' : Scanning (spendTurn s) := by rwa [Scanning, spendTurn_seq]
    have hcost : cost (spendTurn s) ≤ cost s := by simp only [cost, spendTurn_queue, spendTurn_seq]; omega
    obtain ⟨t, ht, hcmd, hbusy, hturns, hnext⟩ := engineStep_scanning hs'
    refine ⟨t, hstep.trans ht, ⟨hfed.engine ht, hcmd.trans (spendTurn_cmd s), hbusy.trans (spendTurn_busy s),
      hturns ▸ hlen⟩, hnext.imp_right fun ⟨hscan, hlt⟩ => ⟨hscan, hlt.trans_le hcost⟩⟩
  · have hqueue := chAppend_queue_length_le b (spendTurn s)
    rw [spendTurn_queue] at hqueue
    obtain ⟨hseq, -, hturns⟩ := chAppend_seq_command_turns b (spendTurn s)
    rw [spendTurn_seq] at hseq
    refine ⟨_, hstep, ⟨hfed.append b, ?_, ?_, ?_⟩, .inr ⟨?_, ?_⟩⟩
    · rw [chAppend_eq]; exact spendTurn_cmd s
    · rw [chAppend_busy, spendTurn_busy]
    · rw [hturns]; omega
    · rwa [Scanning, hseq]
    · simp only [cost, hseq, hturns]; omega

/-- A fed scan stops within its cost, the turns then still listed among it (R115, D35). -/
theorem scanning_stops {n : Nat} {s : State} (h : Fed s) (hs : Scanning s) (hn : cost s ≤ n) :
    ∃ k t, k + t.turns.length ≤ n ∧ stepN k s = .next t ∧ FedRun s t ∧ Stopped t := by
  induction n generalizing s with
  | zero => unfold cost at hn; split at hn <;> omega
  | succ n ih =>
    obtain ⟨t, hstep, hrun, hstop | ⟨hscan, hlt⟩⟩ := step_scanning h hs
    · have hturns : 3 * s.turns.length + 2 ≤ cost s := by unfold cost; split <;> omega
      have hleft := hrun.turns
      exact ⟨1, t, by omega, stepN_one hstep, hrun, hstop⟩
    · obtain ⟨k, u, hk, hku, hrun', hstop⟩ := ih hrun.fed hscan (by omega)
      exact ⟨k + 1, u, by omega, stepN_succ hstep hku, hrun.trans hrun', hstop⟩

/-- Under RESYNC the engine's next turn behind the scan ends the command (R112, R113). -/
theorem engineStep_stopped_resync {s : State} (hs : s.seq = .rTake2 ∨ s.seq = .rFlush) (hc : s.command = some .resync) :
    ∃ t, engineStep s = .next t ∧ t.busy = false ∧ t.seq = .idle ∧ (t.result = .ok ∨ t.result = .desynchronized) := by
  rcases hs with hs | hs
  · rw [engineStep_rTake2 hs, stepRTake2_of_resync hc]
    exact ⟨_, rfl, rfl, rfl, .inl rfl⟩
  · exact ⟨_, (failedScanFlushesChannel s hs).1 (.inl hc), rfl, rfl, .inr rfl⟩

/-- That turn comes once the producer's turns before it are spent, whatever they append. -/
theorem stopped_resync_ends {s : State} (h : Fed s) (hs : s.seq = .rTake2 ∨ s.seq = .rFlush)
    (hc : s.command = some .resync) :
    ∃ k t, k ≤ s.turns.length + 1 ∧ stepN k s = .next t ∧ t.busy = false ∧ t.seq = .idle ∧
      (t.result = .ok ∨ t.result = .desynchronized) := by
  obtain ⟨hfed, ⟨hstep, -⟩ | ⟨b, hstep, hlen⟩⟩ := h.step
  · obtain ⟨t, ht, hends⟩ :=
      engineStep_stopped_resync (s := spendTurn s) (by rwa [spendTurn_seq]) ((spendTurn_command s).trans hc)
    exact ⟨1, t, by omega, stepN_one (hstep.trans ht), hends⟩
  · obtain ⟨hseq, hcommand, hturns⟩ := chAppend_seq_command_turns b (spendTurn s)
    have hlt : (chAppend b (spendTurn s)).turns.length < s.turns.length := by rw [hturns]; omega
    obtain ⟨k, t, hk, hrun, hends⟩ := stopped_resync_ends (hfed.append b)
      (by rwa [hseq, spendTurn_seq]) (hcommand.trans ((spendTurn_command s).trans hc))
    exact ⟨k + 1, t, by omega, stepN_succ hstep hrun, hends⟩
termination_by s.turns.length

/-- Settles O55: the scan stops within its cost, and the engine's next turn then ends RESYNC. -/
theorem scanEndsAfterFiniteFeed : Obligations.ScanEndsAfterFiniteFeed := by
  intro s hr he hs hts hl
  have hcost : cost s = 3 * s.turns.length + 2 * s.queue.length + 2 := by rw [cost, if_neg (by simp [hs])]
  obtain ⟨k, t, hk, hrun, ⟨hfed, hcmd, hbusy, hturns⟩, hstop⟩ := scanning_stops ⟨hr, he, hts, hl⟩ (.inl hs) hcost.le
  refine ⟨⟨k, t, by omega, hrun, hcmd, hbusy, hstop⟩, fun hc => ?_⟩
  have htc : t.command = some .resync := by rw [State.command, hcmd]; exact hc
  obtain ⟨k', u, hk', hrun', hends⟩ := stopped_resync_ends hfed (hstop.imp And.left And.left) htc
  exact ⟨k + k', u, by omega, stepN_trans hrun hrun', hends⟩

/-! ### Runs without end -/

/-- Two steps of the fed scan: the producer appends its byte, and the scan skips it; the schedule then stands again at its
start (R115, R168). -/
theorem skip_round {s : State} {b : Byte} (hr : s.refused = false) (he : s.engineHalted = false) (hs : s.seq = .rRead)
    (hq : s.queue = []) (hcap : 0 < s.chanCap) (hb : b ≠ 0x42) (hts : s.turns = [])
    (hl : s.later = .again [.producer b, .engine]) :
    step s = .next { s with queue := [b], turns := [.engine] } ∧
      step { s with queue := [b], turns := [.engine] } = .next s := by
  constructor
  · obtain ⟨hn, hspend⟩ := turn_of_again_later hts hl
    rw [step_eq hr, hn, hspend, runTurn, chAppend, if_pos (by simpa [hq] using hcap)]
    simp [hq]
  · have hstart : ({ s with queue := [b], turns := [] } : State) = scanAt .rRead [b] s := by
      rw [scanAt, ← hs, ← hts]
    have hskip := engineStep_scan_other hb [] s
    rw [scanAt_self hs hq, ← hstart] at hskip
    exact (step_listed_engine (s := { s with queue := [b], turns := [.engine] }) hr he rfl).trans hskip

/-- A scan that skips one byte each time stands at its start, or has one more byte before it, after every number of steps. -/
theorem skip_rounds {s : State} {b : Byte} (hr : s.refused = false) (he : s.engineHalted = false) (hs : s.seq = .rRead)
    (hq : s.queue = []) (hcap : 0 < s.chanCap) (hb : b ≠ 0x42) (hts : s.turns = [])
    (hl : s.later = .again [.producer b, .engine]) (k : Nat) :
    (stepN k s = .next s ∨ stepN k s = .next { s with queue := [b], turns := [.engine] }) := by
  obtain ⟨hfeed, hskip⟩ := skip_round hr he hs hq hcap hb hts hl
  induction k with
  | zero => exact .inl rfl
  | succ k ih =>
    rcases ih with h | h
    · exact .inr (stepN_trans h (stepN_one hfeed))
    · exact .inl (stepN_trans h (stepN_one hskip))

/-- In N_WAIT the engine alone changes nothing (R168). -/
theorem step_nWait_alone {s : State} (hr : s.refused = false) (hs : s.seq = .nWait) (hts : s.turns = [])
    (hl : s.later = .engine) : step s = .next s := by
  cases he : s.engineHalted with
  | true => exact (faultedAgentTakesNoStep s hr).2.2.1 he hts hl
  | false =>
    obtain ⟨-, hstep, -, hwait⟩ := engineTurnRunsMicroStep s hr he
    rw [hstep hts hl, hwait (.inr hs)]

/-- Settles O56: the fed scan has a round of two steps, the unanswered notification one of a single step. -/
theorem twoRunsNeedNotEnd : Obligations.TwoRunsNeedNotEnd := by
  refine ⟨fun s b hr he hs hq hcap hb hts hl k => ?_, fun s hr hs hts hl k => ?_⟩
  · rcases skip_rounds hr he hs hq hcap hb hts hl k with h | h
    · exact ⟨s, h, hs, rfl, rfl, rfl, rfl, rfl, rfl⟩
    · exact ⟨_, h, hs, rfl, rfl, rfl, rfl, rfl, rfl⟩
  · induction k with
    | zero => rfl
    | succ k ih => exact stepN_succ (step_nWait_alone hr hs hts hl) ih

end Sys2Proof.FedScan
end

section
/-! Runs of POLL and NOTIFY (R91 to R99, R137 to R142): a poll that never finds a frame runs out of retries, and the
notifications of the registered handles, one round of the handshake each, under NOTIFY and behind a poll's good frame. -/

namespace Sys2Proof.PollRun

open Machine Acquire Registry HostAccess Engine Invariant SingleStep Runs

/-! ### A poll on a short channel -/

/-- An attempt that finds fewer than 32 bytes comes back to the loop head with one retry spent (R92, R102). -/
theorem pollIterate_returns {s : State} (h : EngineAlone s) (hc : s.command = some .poll) (hq : s.queue.length < 32) :
    ∃ k ≤ 1, stepN k (pollIterate s) = .next { s with pfirst := false, retry := s.retry - 1, seq := .pHead } := by
  by_cases hempty : s.queue.length = 0
  · refine ⟨0, by omega, ?_⟩
    rw [pollIterate, chAvailable, if_pos hempty]
    rfl
  · refine ⟨1, le_rfl, ?_⟩
    rw [pollIterate, chAvailable, if_neg hempty]
    have halone : EngineAlone { s with pfirst := false, retry := s.retry - 1, seq := .aSample } :=
      ⟨h.refused, h.engineHalted, h.turns, h.later⟩
    exact halone.run ((acquirerSamplesByteCount _ rfl).1 hq hc) rfl

/-- The engine alone at the loop head of a poll, with the channel and the frame of a reference state. -/
structure AtHead (s v : State) : Prop where
  alone : EngineAlone v
  seq : v.seq = .pHead
  command : v.command = some .poll
  queue : v.queue = s.queue
  meas : v.meas = s.meas
  fbuf : v.fbuf = s.fbuf
  note : v.note = s.note

/-- A loop head that goes on, whether a draw was asked or not, is back at the head within two steps (R92, R97). -/
theorem poll_retries {s v w : State} (h : AtHead s v) (hq : s.queue.length < 32) (hw : w = v ∨ w = drawTaken v)
    (hstep : stepPHead v = pollIterate w) :
    ∃ k ≤ 2, ∃ v', stepN k v = .next v' ∧ AtHead s v' ∧ v'.retry = v.retry - 1 ∧ v'.pfirst = false ∧
      v'.draws = w.draws := by
  obtain ⟨halone, hseq, hcommand, hqueue, hmeas, hfbuf, hnote⟩ := h
  obtain ⟨⟨halone', -, hcommand', hqueue', hmeas', hfbuf', hnote'⟩, hretry⟩ : AtHead s w ∧ w.retry = v.retry := by
    rcases hw with rfl | rfl
    · exact ⟨⟨halone, hseq, hcommand, hqueue, hmeas, hfbuf, hnote⟩, rfl⟩
    · exact ⟨⟨⟨halone.refused, halone.engineHalted, halone.turns, halone.later⟩, hseq, hcommand, hqueue, hmeas, hfbuf,
        hnote⟩, rfl⟩
  obtain ⟨k, hk, hrun⟩ := pollIterate_returns halone' hcommand' (hqueue' ▸ hq)
  refine ⟨k + 1, by omega, _, halone.run ((engineStep_pHead hseq).trans (congrArg _ hstep)) hrun,
    ⟨⟨halone'.refused, halone'.engineHalted, halone'.turns, halone'.later⟩, rfl, hcommand', hqueue', hmeas', hfbuf',
      hnote'⟩, congrArg (· - 1) hretry, rfl, rfl⟩

/-- The end of a poll that found no frame: nothing is consumed, decoded or notified (R97, R99). -/
structure TimedOut (s t : State) : Prop where
  busy : t.busy = false
  result : t.result = .timeout
  pollst : t.pollst = .exhausted
  queue : t.queue = s.queue
  meas : t.meas = s.meas
  fbuf : t.fbuf = s.fbuf
  note : t.note = s.note

/-- How many more draws, all false, take the poll to its last retry: one for each retry but that of the first head (R92). -/
def drawsLeft (s : State) : Nat := s.retry.toNat - s.pfirst.toNat

/-- From a loop head, each retry costs two steps, and a last one ends the poll; a draw may end it sooner. -/
theorem poll_times_out {n : Nat} {s v : State} (h : AtHead s v) (hq : s.queue.length < 32) (hn : v.retry.toNat = n) :
    ∃ k ≤ 2 * n + 1, ∃ t, stepN k v = .next t ∧ TimedOut s t ∧
      ∀ ds, v.draws = List.replicate (drawsLeft v) false ++ ds → t.retry = 0 := by
  induction n generalizing v with
  | zero =>
    have hr : v.retry = 0 := BitVec.eq_of_toNat_eq hn
    exact ⟨1, le_rfl, _, h.alone.run ((pollHeadRetriesOrEnds v h.seq).1 hr) rfl,
      ⟨rfl, rfl, rfl, h.queue, h.meas, h.fbuf, h.note⟩, fun _ _ => hr⟩
  | succ n ih =>
    have hr : v.retry ≠ 0 := fun e => by simp [e] at hn
    have goesOn {w : State} (hw : w = v ∨ w = drawTaken v) (hstep : stepPHead v = pollIterate w) :
        ∃ k ≤ 2 * (n + 1) + 1, ∃ t, stepN k v = .next t ∧ TimedOut s t ∧
          ∀ ds, w.draws = List.replicate n false ++ ds → t.retry = 0 := by
      obtain ⟨k, hk, v', hback, hhead, hretry, hfirst, hdraws⟩ := poll_retries h hq hw hstep
      have hspent : v'.retry.toNat = n := by rw [hretry]; bv_omega
      obtain ⟨k', hk', t, hrun, hout, hzero⟩ := ih hhead hspent
      have hleft : drawsLeft v' = n := by rw [drawsLeft, hspent, hfirst]; rfl
      rw [hleft, hdraws] at hzero
      exact ⟨k + k', by omega, t, stepN_trans hback hrun, hout, hzero⟩
    cases hp : v.pfirst with
    | true =>
      have hleft : drawsLeft v = n := by rw [drawsLeft, hn, hp]; rfl
      rw [hleft]
      exact goesOn (.inl rfl) (stepPHead_of_first hr hp)
    | false =>
      have hleft : drawsLeft v = n + 1 := by rw [drawsLeft, hn, hp]; rfl
      have hhead := stepPHead_of_later hr hp
      rw [hleft]
      cases hd : drawValue v with
      | true =>
        rw [if_pos hd] at hhead
        refine ⟨1, by omega, _, h.alone.run ((engineStep_pHead h.seq).trans (congrArg _ hhead)) rfl,
          ⟨rfl, rfl, rfl, h.queue, h.meas, h.fbuf, h.note⟩, fun ds hds => ?_⟩
        rw [List.replicate_succ, List.cons_append] at hds
        simp [drawValue, hds] at hd
      | false =>
        rw [if_neg (by simp [hd])] at hhead
        obtain ⟨k, hk, t, hrun, hout, hzero⟩ := goesOn (.inr rfl) hhead
        refine ⟨k, hk, t, hrun, hout, fun ds hds => hzero ds ?_⟩
        rw [drawTaken_draws, hds]; rfl

/-- Settles O57: from its first head the poll has three retries, and two draws between them. -/
theorem pollOnShortChannelTimesOut : Obligations.PollOnShortChannelTimesOut := by
  intro s hinv hr hh he hb hts hl hq
  have hnote : s.note = 0 := hinv.note_idle (by simp [(ended_of_inv hinv hb).seq])
  obtain ⟨k, hk, t, hrun, ⟨hbusy, hresult, hpollst, hqueue, hmeas, hfbuf, hnote'⟩, hretry⟩ :=
    poll_times_out (n := 3) (v := started .poll [] s)
      ⟨.started .poll hr he hl, rfl, started_command .poll [] s, rfl, rfl, rfl, rfl⟩ hq rfl
  exact ⟨k + 1, t, by omega, stepN_succ (step_started .poll hr hh hb hts) hrun, hbusy, hresult, hpollst, hqueue, hmeas,
    hfbuf, hnote'.trans hnote, hretry⟩

end Sys2Proof.PollRun
end

section
/-! Runs of the notification handshake (R94, R137 to R142): a round shows one slot and takes one answer; the rounds of all
slots under NOTIFY, and behind the one good frame of a poll. -/

namespace Sys2Proof.NotifyRun

open Machine Acquire Registry HostAccess Transactions Engine Invariant SingleStep Runs

/-! ### Rounds of the handshake -/

/-- Neither agent has halted and the run is not refused (R145, R146). -/
structure Live (s : State) : Prop where
  refused : s.refused = false
  hostHalted : s.hostHalted = false
  engineHalted : s.engineHalted = false

/-- The turns of n rounds: the engine shows a slot, and the host answers ACK DONE. -/
def rounds (n : Nat) : List Turn := (List.replicate n [Turn.engine, .host (encode .ackDone)]).flatten

/-- One round more, at the end. -/
theorem rounds_succ_append (n : Nat) (ts : List Turn) :
    rounds (n + 1) ++ ts = rounds n ++ .engine :: .host (encode .ackDone) :: ts := by
  rw [rounds, List.replicate_succ', List.flatten_append, List.append_assoc]
  rfl

/-- One round of several that stands behind the first ones. -/
theorem rounds_split {i n : Nat} (h : i < n) (ts : List Turn) :
    ∃ ts', rounds n ++ ts = rounds i ++ .engine :: ts' := by
  obtain ⟨m, rfl⟩ := Nat.exists_eq_add_of_lt h
  refine ⟨.host (encode .ackDone) :: (rounds m ++ ts), ?_⟩
  rw [rounds, Nat.add_assoc, List.replicate_add, List.flatten_append, List.append_assoc, List.replicate_succ]
  rfl

/-- A state before the notification of slot i, with these turns to come. -/
def notifyAt (i : Nat) (ts : List Turn) (s : State) : State :=
  { s with note := 0, nidx := BitVec.ofNat 4 i, seq := .nNext, turns := ts }

/-- A state while the notification of slot i is pending, with these turns to come. -/
def pendingAt (i : Nat) (ts : List Turn) (s : State) : State :=
  { s with
    note := noteWord (BitVec.ofNat 4 i) (s.obsAt (BitVec.ofNat 4 i).toNat)
    nidx := BitVec.ofNat 4 i
    seq := .nWait
    turns := ts }

theorem Live.notifyAt {s : State} (h : Live s) (i : Nat) (ts : List Turn) : Live (notifyAt i ts s) :=
  ⟨h.refused, h.hostHalted, h.engineHalted⟩

theorem Live.pendingAt {s : State} (h : Live s) (i : Nat) (ts : List Turn) : Live (pendingAt i ts s) :=
  ⟨h.refused, h.hostHalted, h.engineHalted⟩

theorem slot_toNat {i : Nat} {c : BitVec 4} (h : i ≤ c.toNat) : (BitVec.ofNat 4 i).toNat = i :=
  Nat.mod_eq_of_lt (h.trans_lt c.isLt)

/-- The engine shows slot i (R138). -/
theorem step_notifyAt {s : State} (h : Live s) {i : Nat} (hi : i < s.count.toNat) (ts : List Turn) :
    step (notifyAt i (.engine :: ts) s) = .next (pendingAt i ts s) := by
  have hslot := slot_toNat hi.le
  have hne : BitVec.ofNat 4 i ≠ s.count := fun e => by rw [e] at hslot; omega
  have hlive := h.notifyAt i (.engine :: ts)
  have hturn := step_listed_engine hlive.refused hlive.engineHalted (ts := ts) rfl
  exact hturn.trans ((engineStep_nNext rfl).trans (congrArg _ (stepNNext_of_slot hne)))

theorem exec_ackDone_of_pend {s : State} (hp : notePend s = true) : exec .ackDone s = .next (ackReturned s) :=
  if_neg (by simp [hp])

/-- The host answers, and the next slot comes (R139). -/
theorem step_pendingAt {s : State} (h : Live s) (i : Nat) (ts : List Turn) :
    step (pendingAt i (.host (encode .ackDone) :: ts) s) = .next (notifyAt (i + 1) ts s) := by
  have hlive := h.pendingAt i (.host (encode .ackDone) :: ts)
  have hturn := step_encoded hlive.refused hlive.hostHalted (ts := ts) rfl (i := .ackDone) rfl
  have hpend := notePend_noteWord (pendingAt i ts s) _ _ rfl
  have hnext : BitVec.ofNat 4 i + 1 = BitVec.ofNat 4 (i + 1) := (BitVec.ofNat_add i 1).symm
  rw [notifyAt, ← hnext]
  exact hturn.trans (exec_ackDone_of_pend hpend)

/-- After i answered rounds slot i comes next (R138, R139). -/
theorem rounds_run {s : State} (h : Live s) {i : Nat} (hi : i ≤ s.count.toNat) (ts : List Turn) :
    stepN (2 * i) (notifyAt 0 (rounds i ++ ts) s) = .next (notifyAt i ts s) := by
  induction i generalizing ts with
  | zero => rfl
  | succ i ih =>
    rw [rounds_succ_append]
    exact stepN_trans (ih (by omega) _)
      (stepN_succ (step_notifyAt h hi _) (stepN_one (step_pendingAt h i ts)))

/-- Behind the rounds of all slots the engine has nothing left to show, and ends the command (R138). -/
theorem rounds_end {s : State} (h : Live s) (ts : List Turn) :
    stepN (2 * s.count.toNat + 1) (notifyAt 0 (rounds s.count.toNat ++ .engine :: ts) s) =
      .next (stepNNext (notifyAt s.count.toNat ts s)) := by
  have hlive := h.notifyAt s.count.toNat (.engine :: ts)
  have hturn := step_listed_engine hlive.refused hlive.engineHalted (ts := ts) rfl
  exact stepN_trans (rounds_run h le_rfl _) (stepN_one (hturn.trans (engineStep_nNext rfl)))

/-- The state at ⟨N_NEXT⟩ with NIDX = 0 and no notification pending stands before slot 0. -/
theorem notifyAt_self {s : State} (hnote : s.note = 0) (hnidx : s.nidx = 0) (hs : s.seq = .nNext) :
    notifyAt 0 s.turns s = s := by
  cases s
  cases hnote
  cases hnidx
  cases hs
  rfl

/-! ### NOTIFY -/

/-- NOTIFY starts before the notification of slot 0 (R137). -/
theorem started_notify {s : State} (hnote : s.note = 0) (ts : List Turn) :
    started .notify ts s = notifyAt 0 ts (started .notify [] s) := by
  rw [notifyAt, ← hnote]
  rfl

/-- At slot COUNT no notification is left (R138). -/
theorem notifyAt_nidx_count (s : State) (ts : List Turn) (u : State) : (notifyAt s.count.toNat ts u).nidx = s.count := by
  rw [notifyAt, BitVec.ofNat_toNat, BitVec.setWidth_eq]

/-- Settles O58: step 1 is the host's, 2j steps are the rounds before slot j, and one step more shows it; after all rounds
the engine's last turn ends the command. -/
theorem notifyDeliversSlotsInOrder : Obligations.NotifyDeliversSlotsInOrder := by
  intro s hinv hr hh he hb hts
  have hnote : s.note = 0 := hinv.note_idle (by simp [(ended_of_inv hinv hb).seq])
  have hstart := step_started .notify hr hh hb (ts := rounds s.count.toNat ++ [Turn.engine]) hts
  rw [started_notify hnote] at hstart
  have hlive : Live (started .notify [] s) := ⟨hr, hh, he⟩
  refine ⟨fun j hj => ?_, ?_⟩
  · obtain ⟨ts', hsplit⟩ := rounds_split hj [.engine]
    rw [hsplit] at hstart
    have hrun := stepN_succ hstart (stepN_trans (rounds_run hlive hj.le _) (stepN_one (step_notifyAt hlive hj ts')))
    have hslot := slot_toNat (c := s.count) hj.le
    refine ⟨_, hrun, rfl, ?_, rfl⟩
    rw [pendingAt, noteWord_toNat, hslot]
    have hobs : (started .notify [] s).obsAt j = s.obs[j] := dif_pos j.isLt
    rw [hobs]
  · have hcommand : (notifyAt s.count.toNat [] (started .notify [] s)).command = some .notify :=
      started_command .notify [] s
    have hend := stepNNext_of_end_ne_poll (notifyAt_nidx_count s [] (started .notify [] s)) (hcommand.trans_ne nofun)
    have hrun := stepN_succ hstart (rounds_end hlive [])
    exact ⟨_, hrun.trans (congrArg _ hend), rfl, rfl, rfl, rfl, rfl, rfl⟩

/-! ### POLL over one good frame -/

/-- A listed turn of the engine, put before a run. -/
theorem listed_engine_run {k : Nat} {s t u : State} {ts : List Turn} (hr : s.refused = false)
    (he : s.engineHalted = false) (hts : s.turns = .engine :: ts) (h : engineStep { s with turns := ts } = .next t)
    (hk : stepN k t = .next u) : stepN (k + 1) s = .next u :=
  stepN_succ ((step_listed_engine hr he hts).trans h) hk

/-- The first loop head of a poll with bytes in the channel goes to the byte count (R92). -/
theorem engineStep_first_head {s : State} (hs : s.seq = .pHead) (hr : s.retry ≠ 0) (hp : s.pfirst = true)
    (hq : s.queue.length ≠ 0) :
    engineStep s = .next { s with pfirst := false, retry := s.retry - 1, seq := .aSample } := by
  rw [engineStep_pHead hs, stepPHead_of_first hr hp, pollIterate, chAvailable, if_neg hq]

/-- A poll that has read and decoded the frame, with these turns to come: its observers are next (R93). -/
structure FrameRead (F : Vector Byte 32) (ts : List Turn) (s t : State) : Prop where
  live : Live t
  turns : t.turns = ts
  seq : t.seq = .nNext
  nidx : t.nidx = 0
  note : t.note = s.note
  count : t.count = s.count
  command : t.command = some .poll
  retry : t.retry = s.retry - 1
  queue : t.queue = []
  fbuf : t.fbuf = F
  meas : t.meas = frameMeas F

/-- The four engine steps of a poll that finds exactly one good frame: the loop head, the byte count, the read and the
decoder (R92, R102, R103, R120). -/
theorem poll_reads_frame {s : State} {F : Vector Byte 32} {ts : List Turn} (h : Live s) (hs : s.seq = .pHead)
    (hr : s.retry ≠ 0) (hp : s.pfirst = true) (hc : s.command = some .poll) (hq : s.queue = F.toList)
    (hF : frameResult F = .ok) (hts : s.turns = List.replicate 4 .engine ++ ts) :
    ∃ t, stepN 4 s = .next t ∧ FrameRead F ts s t := by
  obtain ⟨hrefused, hhost, hhalted⟩ := h
  have hlen : s.queue.length = 32 := by rw [hq, Vector.length_toList]
  obtain ⟨v, hread, hfbuf, hwritten, hqueue, hv⟩ := directReadFillsFrame
    { s with turns := .engine :: ts, pfirst := false, retry := s.retry - 1, seq := .aRead32 } rfl hlen.ge
  have hframe : v.fbuf = F := Vector.toList_inj.1 ((hfbuf.trans (List.take_of_length_le hlen.le)).trans hq)
  have hempty : v.queue = [] := hqueue.trans (List.drop_of_length_le hlen.le)
  rw [hframe, hempty] at hv
  generalize v.written = W at hwritten hv
  subst hv
  have hhead := engineStep_first_head (s := { s with turns := .engine :: .engine :: .engine :: ts }) hs hr hp
    (by simp [hlen])
  have hsample := (acquirerSamplesByteCount
    { s with turns := .engine :: .engine :: ts, pfirst := false, retry := s.retry - 1, seq := .aSample } rfl).2.2.1 hlen
  have hdecode := ((decodeStepRoutesResult { s with
    turns := ts
    pfirst := false
    retry := s.retry - 1
    queue := []
    fbuf := F
    written := W
    seq := .dExec } rfl).2 hwritten).2.1 hc hF
  exact ⟨_, listed_engine_run hrefused hhalted hts hhead (listed_engine_run hrefused hhalted rfl hsample
      (listed_engine_run hrefused hhalted rfl hread (listed_engine_run hrefused hhalted rfl hdecode rfl))),
    ⟨hrefused, hhost, hhalted⟩, rfl, rfl, rfl, rfl, rfl, hc, rfl, rfl, rfl, rfl⟩

/-- Settles O59: the host's turn, the four steps that read and decode the frame, and the rounds of all slots, whose end is
the poll's success. -/
theorem pollOnOneGoodFrameSucceeds : Obligations.PollOnOneGoodFrameSucceeds := by
  intro s F hinv hr hh he hb hq hF hts
  have hnote : s.note = 0 := hinv.note_idle (by simp [(ended_of_inv hinv hb).seq])
  have hstart := step_started .poll hr hh hb
    (ts := List.replicate 4 Turn.engine ++ (rounds s.count.toNat ++ [Turn.engine])) hts
  have hretry : (3 : BitVec 2) ≠ 0 := by decide
  have hspent : (3 : BitVec 2) - 1 = 2 := by decide
  obtain ⟨t, hread, hlive, hturns, hseq, hnidx, htnote, hcount, hcommand, htretry, hqueue, hfbuf, hmeas⟩ :=
    poll_reads_frame (s := started .poll (List.replicate 4 .engine ++ (rounds s.count.toNat ++ [.engine])) s)
      ⟨hr, hh, he⟩ rfl hretry rfl (started_command ..) hq hF rfl
  have hcount' : t.count = s.count := hcount
  have hself := notifyAt_self (htnote.trans hnote) hnidx hseq
  have hend := stepNNext_of_end_poll (notifyAt_nidx_count t [] t) hcommand
  have hrounds := rounds_end hlive []
  rw [hend, hcount', ← hturns, hself] at hrounds
  have hrun := stepN_succ hstart (stepN_trans hread hrounds)
  rw [show 4 + (2 * s.count.toNat + 1) + 1 = 2 * s.count.toNat + 6 by omega] at hrun
  exact ⟨_, hrun, rfl, rfl, rfl, rfl, htretry.trans hspent, hqueue, rfl, hfbuf, hmeas⟩

end Sys2Proof.NotifyRun
end
